-- ==== Sys2Proof/Word.lean ====
section
/-! DEFINITION. Word.lean: the word types of `streebog_hash_core`, as `00_scope.md` rules R6 to R8 and
`30_encoding.md` rule R82 name them. Every value is unsigned (R6, R133). -/

namespace Sys2Proof

/-- One byte, the unit `SUB` and `PERM` act on (R7). -/
abbrev Byte := BitVec 8

/-- One 64-bit lane of the linear transform (R8); bit 63 is the most significant. -/
abbrev Lane := BitVec 64

/-- A 512-bit vector, the one size of every core value (R6, R33); bit 511 is the most significant. -/
abbrev Vec := BitVec 512

/-- One command word of format `CMD16` (R82). -/
abbrev CommandWord := BitVec 16

end Sys2Proof
end

