-- ==== Sys2Proof/Syntax.lean ====
section
/-! DEFINITION. Syntax.lean: the instructions of this hardware, which are its five host commands
(`30_encoding.md` R83; one constructor per row of `opcode_table.json`), and the raw fields of a `CMD16` word
(R82). The 64 message bytes of `BLOCK` and `LAST` are no part of the word: they stand on the data port (R57). -/

namespace Sys2Proof

/-- The command set `SHC-CMD v1` (R1, R83). -/
inductive Instr where
  /-- `NOP` (R163). -/
  | nop
  /-- `INIT v256`: `true` asks for the 256-bit digest, `false` for the 512-bit digest (R84, R164). -/
  | init (v256 : Bool)
  /-- `BLOCK`, absorb the full chunk on the data port (R165). -/
  | block
  /-- `LAST len`, absorb the tail of `len` bytes on the data port; every 6-bit value is legal (R85, R166). -/
  | last (len : BitVec 6)
  /-- `FINAL`, the two closing folds (R180). -/
  | final
deriving DecidableEq, Repr

/-- The four fields of a command word (R82). -/
structure Cmd16 where
  op   : BitVec 4
  rsv  : BitVec 5
  v256 : Bool
  len  : BitVec 6
deriving DecidableEq, Repr

end Sys2Proof
end

