-- ==== Sys2Proof/WellFormed.lean ====
section
/-! DEFINITION. WellFormed.lean: which command words are legal (`30_encoding.md` R86) and which instructions are
well formed (R84, R85). The four clauses of R86 are four checks on the raw fields. An `Instr` can hold no
ill-formed operand (R60: an over-long tail cannot be expressed), so its check restates the range of R85. -/

namespace Sys2Proof

/-- R86, first clause: `op` is not in 0x5..0xF. -/
def Cmd16.opcodeDefined (f : Cmd16) : Bool := f.op.toNat < 5

/-- R86, second clause: `rsv` is 0. -/
def Cmd16.reservedZero (f : Cmd16) : Bool := f.rsv == 0

/-- R86, third clause: `v256 = 1` only where `op` is `INIT` (0x1). -/
def Cmd16.variantInInit (f : Cmd16) : Bool := !f.v256 || f.op == 1

/-- R86, fourth clause: `len` is not 0 only where `op` is `LAST` (0x3). -/
def Cmd16.lengthInLast (f : Cmd16) : Bool := f.len == 0 || f.op == 3

/-- A word is legal when no clause of R86 calls it illegal. -/
def Cmd16.legal (f : Cmd16) : Bool :=
  f.opcodeDefined && f.reservedZero && f.variantInInit && f.lengthInLast

/-- The operand range of each command: `len` is a number 0..63 of bytes (R85), `v256` either bit (R84). -/
def Instr.wellFormed (i : Instr) : Bool :=
  match i with
  | .nop => true
  | .init _ => true
  | .block => true
  | .last len => len.toNat ≤ 63
  | .final => true

end Sys2Proof
end

