-- ==== Sys2Proof/Decode.lean ====
section
/-! DEFINITION. Decode.lean: the decoder of `30_encoding.md` R89, total on all 65536 words, and the encoder written
from the opcode map R83. Decoding reads the sixteen command bits and nothing else (R67, R88, R89). -/

namespace Sys2Proof

/-- Why a word is `ILLEGAL` (R86, R89). The spec has the one cause `ILLEGAL_CMD` for all of them; the names are the
model's (log entry 13). -/
inductive DecodeRefusal where
  /-- `rsv` is not 0. -/
  | reservedBits
  /-- `op` is in 0x5..0xF. -/
  | reservedOpcode
  /-- `v256 = 1` outside `INIT`. -/
  | variantOutsideInit
  /-- `len` is not 0 outside `LAST`. -/
  | lengthOutsideLast
deriving DecidableEq, Repr

/-- The fields of a word: `op = w[15:12]`, `rsv = w[11:7]`, `v256 = w[6]`, `len = w[5:0]` (R82). -/
def Cmd16.ofWord (w : CommandWord) : Cmd16 :=
  { op := w.extractLsb' 12 4, rsv := w.extractLsb' 7 5, v256 := w.getLsbD 6, len := w.extractLsb' 0 6 }

/-- The word that holds the given fields (R82). -/
def Cmd16.toWord (f : Cmd16) : CommandWord :=
  BitVec.ofNat 16 (f.op.toNat * 2 ^ 12 + f.rsv.toNat * 2 ^ 7 + f.v256.toNat * 2 ^ 6 + f.len.toNat)

/-- A command that takes neither field: `v256` and `len` must both be 0 (R89). -/
def plainCommand (f : Cmd16) (i : Instr) : Except DecodeRefusal Instr :=
  if f.v256 then .error .variantOutsideInit
  else if f.len ≠ 0 then .error .lengthOutsideLast
  else .ok i

/-- The opcode map of a word whose reserved bits are 0 (R83, R89). -/
def decodeOpcode (f : Cmd16) : Except DecodeRefusal Instr :=
  if f.op = 0 then plainCommand f .nop
  else if f.op = 1 then (if f.len ≠ 0 then .error .lengthOutsideLast else .ok (.init f.v256))
  else if f.op = 2 then plainCommand f .block
  else if f.op = 3 then (if f.v256 then .error .variantOutsideInit else .ok (.last f.len))
  else if f.op = 4 then plainCommand f .final
  else .error .reservedOpcode

/-- The decode procedure of R89: the reserved bits first, then the opcode map. -/
def decode (w : CommandWord) : Except DecodeRefusal Instr :=
  let f := Cmd16.ofWord w
  if f.rsv ≠ 0 then .error .reservedBits else decodeOpcode f

/-- The fields of each command (R83 to R85). -/
def Instr.fields (i : Instr) : Cmd16 :=
  match i with
  | .nop => { op := 0, rsv := 0, v256 := false, len := 0 }
  | .init v256 => { op := 1, rsv := 0, v256 := v256, len := 0 }
  | .block => { op := 2, rsv := 0, v256 := false, len := 0 }
  | .last len => { op := 3, rsv := 0, v256 := false, len := len }
  | .final => { op := 4, rsv := 0, v256 := false, len := 0 }

/-- The word of a command (R83). -/
def encode (i : Instr) : CommandWord := i.fields.toWord

/-- A row of the opcode map: a word `w` selects it exactly when `(w and mask) = pattern` (R83). -/
structure OpcodeRow where
  mnemonic : String
  pattern  : CommandWord
  mask     : CommandWord
deriving DecidableEq, Repr

/-- The row of each command, with the match and mask of the opcode map (R83). -/
def Instr.row (i : Instr) : OpcodeRow :=
  match i with
  | .nop => { mnemonic := "NOP", pattern := 0x0000, mask := 0xFFFF }
  | .init _ => { mnemonic := "INIT", pattern := 0x1000, mask := 0xFFBF }
  | .block => { mnemonic := "BLOCK", pattern := 0x2000, mask := 0xFFFF }
  | .last _ => { mnemonic := "LAST", pattern := 0x3000, mask := 0xFFC0 }
  | .final => { mnemonic := "FINAL", pattern := 0x4000, mask := 0xFFFF }

/-- The five rows of the opcode map (R83). -/
def opcodeTable : List OpcodeRow :=
  [Instr.nop.row, (Instr.init false).row, Instr.block.row, (Instr.last 0).row, Instr.final.row]

/-- The row whose pattern a word has (R83). -/
def OpcodeRow.selects (r : OpcodeRow) (w : CommandWord) : Prop := w &&& r.mask = r.pattern

/-- The command word among the `nbits` low bits of `w`; `none` where they do not fit the one length, 16 bits (R88). -/
def tableWord (nbits w : Nat) : Option CommandWord :=
  if w % 2 ^ nbits < 2 ^ 16 then some (BitVec.ofNat 16 (w % 2 ^ nbits)) else none

/-- What the decoder reads from a word numbered as `opcode_table.json` numbers it: one 16-bit word, bit 0 its least
significant bit (R82). -/
def decodeTableWord (nbits w : Nat) : Option Instr :=
  match tableWord nbits w with
  | none => none
  | some word =>
    match decode word with
    | .ok i => some i
    | .error _ => none

end Sys2Proof
end

