-- ==== Sys2Proof/Config.lean ====
section
/-! DEFINITION. Config.lean: what an implementation fixes and the spec leaves open (`00_scope.md` R5, the parameters
marked `OPEN`), and the free values. Nothing here has a body that Lean can evaluate: no statement can rest on a
number. -/

namespace Sys2Proof.Config

/-- `LATENCY_INIT`: clock cycles an `INIT` keeps the core busy, at least 1 (R5, R81). No rule reads it (log entry 7). -/
opaque latencyInit : ℕ+

/-- `LATENCY_BLOCK` (R5, R81). -/
opaque latencyBlock : ℕ+

/-- `LATENCY_LAST` (R5, R81). -/
opaque latencyLast : ℕ+

/-- `LATENCY_FINAL` (R5, R81). -/
opaque latencyFinal : ℕ+

/-- `NUM_CORES`: how many instances a platform has (R5, R205); State is one of them (log entry 10). -/
opaque numCores : Nat

/-- The five 512-bit registers that hardware reset gives no value (R38, R220). -/
inductive DataRegister where
  | hash
  | n
  | sigma
  | block
  | blockSize
deriving DecidableEq, Repr

/-- FREE VALUE: what a data register holds after `rst`, `old` being what it held before and `draw` the number of
resets taken so far. R220: `unspecified (they may keep old contents)`; R38: a value no model may name (log entry 2). -/
opaque vectorAfterReset (register : DataRegister) (draw : Nat) (old : Vec) : Vec

/-- FREE VALUE: what `use256` holds after `rst` (R38, R220; log entry 2). -/
opaque variantAfterReset (draw : Nat) (old : Bool) : Bool

end Sys2Proof.Config
end

