-- ==== Sys2Proof/Machine/Bytes.lean ====
section
/-! DEFINITION. Machine/Bytes.lean: the byte and lane numbering of a vector (`00_scope.md` R7, R8), the byte
numbering of the data and digest buses (`20_memory.md` R57, R58), and the byte sequences that pass the ports (R9).
Byte order is decided here, once (R59). -/

namespace Sys2Proof.Machine

/-- Sixty-four bytes by index: the contents of a chunk `d[0..63]` (R57) or the bytes a transform builds. -/
abbrev Bytes64 := Fin 64 → Byte

/-- The integer whose base-`2^w` digits are `fields`, most significant first (R7: `sum of B[i] * 256^(63-i)`). -/
def packFields {w : Nat} (fields : List (BitVec w)) : Nat :=
  fields.foldl (fun acc b => acc * 2 ^ w + b.toNat) 0

/-- `B(V)[i] = V[511 - 8*i : 504 - 8*i]`; byte 0 is the most significant (R7). -/
def byteAt (v : Vec) (i : Fin 64) : Byte := v.extractLsb' (504 - 8 * i.val) 8

/-- The vector `V` with `B(V)[i] = f i` for every `i` (R7). -/
def ofBytes (f : Bytes64) : Vec := BitVec.ofNat 512 (packFields ((List.finRange 64).map f))

/-- `W(V)[k] = V[511 - 64*k : 448 - 64*k]`, eight bytes read as a big-endian integer (R8). -/
def laneAt (v : Vec) (k : Fin 8) : Lane := v.extractLsb' (448 - 64 * k.val) 64

/-- The vector `V` with `W(V)[k] = f k` for every `k` (R8). -/
def ofLanes (f : Fin 8 → Lane) : Vec := BitVec.ofNat 512 (packFields ((List.finRange 8).map f))

/-- Byte `j` of a bus, at bits `[8*j + 7 : 8*j]`: the placement of `data_in` (R57) and of `digest` (R58). -/
def busByte (bus : Vec) (j : Fin 64) : Byte := bus.extractLsb' (8 * j.val) 8

/-- The bus on which byte `j` of the sequence stands at bits `[8*j + 7 : 8*j]`, zero beyond its end (R57, R58, R90). -/
def busOfBytes (bytes : List Byte) : Vec := BitVec.ofNat 512 (packFields bytes.reverse)

end Sys2Proof.Machine
end

