-- ==== Sys2Proof/Machine/Adder.lean ====
section
/-! DEFINITION. Machine/Adder.lean: the sub-block `big_endian_adder_512` (`41_adder.md`, R130 to R133). -/

namespace Sys2Proof.Machine

/-- `ADD512(a, b)`: the sum modulo 2^512; the carry out of bit 511 is stored nowhere (R130, R32). -/
def add512 (a b : Vec) : Vec := a + b

/-- One step of the byte-serial adder: from the carry `c` and the bytes `a`, `b`, the sum byte `s[7:0]` and the
new carry `s[8]` of the 9-bit sum (R131). -/
def addByte (c : Bool) (a b : Byte) : Byte × Bool :=
  let s : BitVec 9 := a.setWidth 9 + b.setWidth 9 + (BitVec.ofBool c).setWidth 9
  (s.setWidth 8, s.getLsbD 8)

/-- The byte-serial form: carries run from byte 63, the least significant, to byte 0; the last carry is dropped
(R131). The list built holds the result's bytes, byte 0 first. -/
def add512Serial (a b : Vec) : Vec :=
  let sum := (List.finRange 64).foldr
    (fun i (r : List Byte × Bool) =>
      let s := addByte r.2 (byteAt a i) (byteAt b i)
      (s.1 :: r.1, s.2)) ([], false)
  BitVec.ofNat 512 (packFields sum.1)

end Sys2Proof.Machine
end

