-- ==== Sys2Proof/Machine/Transforms.lean ====
section
/-! DEFINITION. Machine/Transforms.lean: the sub-block `sbox_permutation_pipeline` (`40_primitive_transforms.md`,
R110 to R117): total functions on values, with no failure mode and nothing to alias. -/

namespace Sys2Proof.Machine

/-- `XOR512(a, b)` (R110). -/
def xor512 (a b : Vec) : Vec := a ^^^ b

/-- `SUB`: each byte replaced by its image under table `Pi` (R111). -/
def sub (v : Vec) : Vec := ofBytes fun i => romPi (byteAt v i)

/-- `PERM`: `r[i] <- v[RomTau[i]]` (R112). -/
def perm (v : Vec) : Vec := ofBytes fun i => byteAt v (romTau i)

/-- The lane function `l`: the XOR of the rows of `A` selected by the 1 bits of `w`, bit `63 - j` selecting
row `j` (R113). -/
def lane (w : Lane) : Lane :=
  (List.finRange 64).foldl (fun u j => if w.getLsbD (63 - j.val) then u ^^^ romA j else u) 0

/-- `LIN`: `l` on each of the eight lanes, each written back to its own place (R114). -/
def lin (v : Vec) : Vec := ofLanes fun k => lane (laneAt v k)

/-- `LPS(v) = LIN(PERM(SUB(v)))` (R116). -/
def lps (v : Vec) : Vec := lin (perm (sub v))

/-- The fast table `T[p][b]`: the XOR over `k` in 0..7 of the rows `RomA[8*p + k]` with `b[7 - k] = 1` (R115). -/
def fastTable (p : Fin 8) (b : Byte) : Lane :=
  (List.finRange 8).foldl
    (fun u k => if b.getLsbD (7 - k.val) then u ^^^ romA ⟨8 * p.val + k.val, by omega⟩ else u) 0

/-- The fast form of `l`: the XOR over `p` in 0..7 of `T[p]` at byte `p = w[63 - 8p : 56 - 8p]` (R115). -/
def laneFast (w : Lane) : Lane :=
  (List.finRange 8).foldl (fun u p => u ^^^ fastTable p (w.extractLsb' (56 - 8 * p.val) 8)) 0

end Sys2Proof.Machine
end

