-- ==== Sys2Proof/Machine/Cipher.lean ====
section
/-! DEFINITION. Machine/Cipher.lean: the sub-block `spn_round_function` (`42_round_function.md`, R140 to R143).
Round keys are values inside one evaluation and no part of State (R34, R143). -/

namespace Sys2Proof.Machine

/-- `KS(key, i) = LPS(XOR512(key, RomC[i]))`, `i` in 0..11 (R140). -/
def ks (key : Vec) (i : Fin 12) : Vec := lps (xor512 key (romC i))

/-- The loop index `for i in 0..11` of `E`, in increasing order (R141, R10). -/
def rounds : List (Fin 12) := [0, 1, 2, 3, 4, 5, 6, 7, 8, 9, 10, 11]

/-- What one iteration of `E` holds: the round key and the cipher state (R34). -/
structure CipherState where
  key   : Vec
  state : Vec
deriving DecidableEq, Repr

/-- One iteration of `E`: `state <- LPS(state)`, `key <- KS(key, i)`, `state <- XOR512(state, key)` with the key
after its advance (R141). -/
def encRound (c : CipherState) (i : Fin 12) : CipherState :=
  { key := ks c.key i, state := xor512 (lps c.state) (ks c.key i) }

/-- `E(initialKey, blk)`, the 12-round substitution-permutation network (R141). -/
def enc (initialKey blk : Vec) : Vec :=
  (rounds.foldl encRound { key := initialKey, state := xor512 blk initialKey }).state

/-- The thirteen round keys `K_1 .. K_13` of one evaluation of `E`, in order (R142). -/
def roundKeys (initialKey : Vec) : List Vec := rounds.scanl ks initialKey

end Sys2Proof.Machine
end

