-- ==== Sys2Proof/Machine/Compression.lean ====
section
/-! DEFINITION. Machine/Compression.lean: the sub-block `compression_function` (`43_compression.md`, R150 to
R152), a function of three values; its operands are held by being values (R152). -/

namespace Sys2Proof.Machine

/-- Operand hold (R152, R117): `f` of the value of `v`, which is computed before `f` begins. It equals `f v`
(`hold_eq`); Lean's kernel evaluates it only once `v` is a number, so a register update that holds a `G` is
compared without running the cipher. -/
def hold (v : Vec) (f : Vec → Vec) : Vec :=
  match v.toNat with
  | 0 => f 0
  | k + 1 => f (BitVec.ofNat 512 (k + 1))

/-- `G(N, h, m)`: `K <- LPS(XOR512(N, h))`, `enc <- E(K, m)`, `t <- XOR512(enc, h)`, `h' <- XOR512(t, m)` (R150), each
operand held until the last step has read it (R152). -/
@[irreducible] def compress (N h m : Vec) : Vec :=
  hold N fun N => hold h fun h => hold m fun m =>
    xor512 (xor512 (enc (lps (xor512 N h)) m) h) m

end Sys2Proof.Machine
end

