-- ==== Sys2Proof/Machine/State.lean ====
section
/-! DEFINITION. Machine/State.lean: all the state of one core instance (`10_state.md` R20), with the model's own
fields that hand the core its commands, as plain data. There is no program counter, register file, read-write
memory or stored program to hold (R31, R33, R50). -/

namespace Sys2Proof.Machine

/-- The sequencing state `phase`, a 2-bit register with four values, all named (R27). -/
inductive Phase where
  /-- `IDLE` (0): no context exists. -/
  | idle
  /-- `ABSORB` (1): a context accepts full chunks or the tail. -/
  | absorb
  /-- `PADDED` (2): the tail is absorbed, only finalization remains. -/
  | padded
  /-- `DONE` (3): finalization has run. -/
  | done
deriving DecidableEq, Repr

/-- The causes of a protocol fault that can be raised (R191); `NONE` is never raised and 6, 7 are reserved. -/
inductive FaultCause where
  /-- `ILLEGAL_CMD` (1). -/
  | illegalCmd
  /-- `NOT_INITIALISED` (2). -/
  | notInitialised
  /-- `ALREADY_PADDED` (3). -/
  | alreadyPadded
  /-- `NOT_PADDED` (4). -/
  | notPadded
  /-- `ALREADY_FINAL` (5). -/
  | alreadyFinal
deriving DecidableEq, Repr

/-- What the input ports of R80 carry at one rising edge of `clk` at which the core is ready (R81). -/
structure InputCycle where
  /-- `rst`, synchronous, active high. -/
  rst : Bool
  /-- `cmd_valid`: the host presents a command. -/
  cmdValid : Bool
  /-- `cmd`, the command word. -/
  cmd : CommandWord
  /-- `data_in`, 64 message bytes, byte `d[j]` at bits `[8*j + 7 : 8*j]` (R57). -/
  dataIn : Vec
deriving DecidableEq, Repr

/-- Why a step stops with a fault. There is no such reason: a protocol fault is a status the core goes on from
(R193, log entry 6), and no data raises anything (R190). Closed and empty, so safe. -/
inductive Fault where
deriving DecidableEq, Repr

/-- Why a step is refused. -/
inductive Refusal where
  /-- An arm of `exec` without a meaning; raised by `exec` alone. No arm is one now. Safe: the model stops. -/
  | notModelled (mnemonic : String)
deriving DecidableEq, Repr

/-- One core instance (R20). -/
structure State where
  /-- `hash`, the chaining value (R21). -/
  hash : Vec
  /-- `n`, the running total bit length (R22). -/
  n : Vec
  /-- `sigma`, the running checksum (R23). -/
  sigma : Vec
  /-- `block`, the current message block in internal byte order (R24). -/
  block : Vec
  /-- `block_size`, the bit length of the current block (R25). -/
  blockSize : Vec
  /-- `use256`, the variant, 1 for the 256-bit digest (R26). -/
  use256 : Bool
  /-- `phase` (R27). -/
  phase : Phase
  /-- `err`, the sticky protocol-fault flag (R28). -/
  err : Bool
  /-- `err_cause`, 3 bits (R29). -/
  errCause : BitVec 3
  /-- The data port as sampled when a command was last accepted, `DataIn()` (R57, R81). The model's own field: no
  command reads it before a new acceptance writes it (log entry 5). -/
  dataIn : Vec
  /-- What the host presents in the cycles to come, first one first (R81, R95). The model's own field (log entry 4). -/
  inputs : List InputCycle
  /-- How many hardware resets have drawn free values. The model's own field (log entry 3). -/
  draws : Nat
deriving DecidableEq, Repr

/-- The machine right after hardware reset (R38, R220): `phase = IDLE`, `err = 0`, `err_cause = 0`. The six registers
the spec leaves unspecified hold 0, a choice of the model (DESIGN CHOICE, unsafe, log entry 1); no input is
waiting (log entry 4). -/
def State.reset : State :=
  { hash := 0, n := 0, sigma := 0, block := 0, blockSize := 0, use256 := false
    phase := .idle, err := false, errCause := 0
    dataIn := 0, inputs := [], draws := 0 }

end Sys2Proof.Machine
end

