-- ==== Sys2Proof/Machine/Flags.lean ====
section
/-! DEFINITION. Machine/Flags.lean: the flag-like state and its codes. There are no condition codes or carry flags
(`10_state.md` R32): the flags are `err`, `err_cause` and the derived `digest_valid`. -/

namespace Sys2Proof.Machine

/-- The 2-bit value of the phase register (R27). -/
def Phase.code (p : Phase) : BitVec 2 :=
  match p with
  | .idle => 0
  | .absorb => 1
  | .padded => 2
  | .done => 3

/-- The 3-bit cause code (R191). -/
def FaultCause.code (c : FaultCause) : BitVec 3 :=
  match c with
  | .illegalCmd => 1
  | .notInitialised => 2
  | .alreadyPadded => 3
  | .notPadded => 4
  | .alreadyFinal => 5

/-- `err_cause` after a fault of cause `c`: written only while `err = 0`, the first fault wins (R29, R193). -/
def latchCause (c : FaultCause) (s : State) : BitVec 3 :=
  if s.err then s.errCause else c.code

/-- `digest_valid`, 1 exactly when `phase = DONE` (R30). -/
def digestValid (s : State) : Bool := s.phase == .done

end Sys2Proof.Machine
end

