-- ==== Sys2Proof/Machine/Operands.lean ====
section
/-! DEFINITION. Machine/Operands.lean: every operand of a command: the variant's initial value, the bit length of a
tail, the data port, the padding and the byte reversal (`30_encoding.md` R84, R85; `44_streaming_commands.md` R160,
R161). -/

namespace Sys2Proof.Machine

/-- `IV_256`, every byte 0x01, or `IV_512 = ZERO` (R5, R21). -/
def ivOf (v256 : Bool) : Vec := if v256 then ofBytes fun _ => 0x01#8 else 0

/-- `DataIn()`: the 64 external bytes `d[0..63]` on the data port (R57). -/
def dataBytes (s : State) : Bytes64 := busByte s.dataIn

/-- `REV64` on the way in: `V[i] <- d[63 - i]` (R160). -/
def rev64 (d : Bytes64) : Vec := ofBytes fun i => d i.rev

/-- `REV64` on the way out: `rev[j] <- V[63 - j]` (R160, R181). -/
def rev64Out (v : Vec) : Bytes64 := fun j => byteAt v j.rev

/-- `PAD(d, bl)`: the `bl` tail bytes, the delimiter 0x01 at offset `bl`, zeros after it (R161). -/
def padTail (d : Bytes64) (bl : BitVec 6) : Bytes64 := fun j =>
  if j.val < bl.toNat then d j else if j.val = bl.toNat then 0x01#8 else 0x00#8

/-- The bit length of a full chunk, the constant 512 (R85). -/
def chunkBits : BitVec 16 := 512

/-- The bit length of a tail: `zext_16(len) << 3` (R85). -/
def tailBits (len : BitVec 6) : BitVec 16 := len.setWidth 16 <<< 3

/-- `zext_512(bits)`, the only widening in the core (R162, R171). -/
def blockSizeOf (bits : BitVec 16) : Vec := bits.setWidth 512

end Sys2Proof.Machine
end

