-- ==== Sys2Proof/Machine/Ops.lean ====
section
/-! DEFINITION. Machine/Ops.lean: the register operations the commands share: taking a protocol fault
(`60_exceptions.md` R193), leaving the fault state (R195), the absorb step (`44_streaming_commands.md` R162), a fold of
the hash (`45_finalization.md` R180) and hardware reset (`70_reset_and_hazards.md` R220). Every right-hand side reads
the state before the operation (R226). -/

namespace Sys2Proof.Machine

/-- `raise ProtocolFault(cause)`: `err_cause` takes the cause if `err` was 0, `err` becomes 1, nothing else changes and
the next command is decoded normally (R193, R194, R196). -/
def raiseFault (c : FaultCause) (s : State) : State :=
  { s with errCause := latchCause c s, err := true }

/-- Clearing of the fault flag, which an accepted `INIT` and hardware reset alone do (R195). -/
def clearFault (s : State) : State := { s with err := false, errCause := 0 }

/-- `phase <- p` (R27). -/
def enterPhase (p : Phase) (s : State) : State := { s with phase := p }

/-- The context an `INIT` creates (R38, R164). -/
def createContext (v256 : Bool) (s : State) : State :=
  { s with use256 := v256, hash := ivOf v256, n := 0, sigma := 0, block := 0, blockSize := 0 }

/-- `block <- v` (R165, R166). -/
def loadBlock (v : Vec) (s : State) : State := { s with block := v }

/-- `ABSORB(bits)`, run after `block` has been loaded; `G` reads the old `n` and the old `hash` (R162). -/
def absorbBlock (bits : BitVec 16) (s : State) : State :=
  { s with
    blockSize := blockSizeOf bits
    hash := compress s.n s.hash s.block
    n := add512 s.n (blockSizeOf bits)
    sigma := add512 s.sigma s.block }

/-- One fold of `FINAL`: `hash <- G(ZERO, hash, m)` (R180). -/
def foldHash (m : Vec) (s : State) : State := { s with hash := compress 0 s.hash m }

/-- Hardware reset: `phase <- IDLE`, `err <- 0`, `err_cause <- 0`. The data registers and `use256` are given no value:
each takes a free value (R220, R38; log entry 2). -/
def hardwareReset (s : State) : State :=
  { s with
    phase := .idle
    err := false
    errCause := 0
    hash := Config.vectorAfterReset .hash s.draws s.hash
    n := Config.vectorAfterReset .n s.draws s.n
    sigma := Config.vectorAfterReset .sigma s.draws s.sigma
    block := Config.vectorAfterReset .block s.draws s.block
    blockSize := Config.vectorAfterReset .blockSize s.draws s.blockSize
    use256 := Config.variantAfterReset s.draws s.use256
    draws := s.draws + 1 }

/-- The host's next cycle is over. -/
def dropInput (s : State) : State := { s with inputs := s.inputs.tail }

/-- `data_in` is sampled at acceptance (R81). -/
def sampleData (d : Vec) (s : State) : State := { s with dataIn := d }

end Sys2Proof.Machine
end

