-- ==== Sys2Proof/Machine/Finalization.lean ====
section
/-! DEFINITION. Machine/Finalization.lean: the command `FINAL` and the digest output (`45_finalization.md` R180, R181),
and the output ports of R80. -/

namespace Sys2Proof.Machine

/-- `FINAL`: admitted in `PADDED`; the fold of `n`, then the fold of `sigma` on the hash that the first produced, then
`phase <- DONE` (R180). -/
def execFinal (s : State) : Host.Outcome State Fault Refusal :=
  match s.phase with
  | .idle => .next (raiseFault .notInitialised s)
  | .absorb => .next (raiseFault .notPadded s)
  | .done => .next (raiseFault .alreadyFinal s)
  | .padded => .next (enterPhase .done (foldHash s.sigma (foldHash s.n s)))

/-- The output function `DIGEST` on values: the bytes of `REV64(hash)`, for the 256-bit variant its bytes 32..63 only
(R181; `90_conflicts.md` C6). -/
def digestBytes (use256 : Bool) (hash : Vec) : List Byte :=
  let rev := (List.finRange 64).map (rev64Out hash)
  if use256 then rev.drop 32 else rev

/-- The digest a host may read: defined only when `phase = DONE` (R30, R181). At any other time there is no value
to read (log entry 9). -/
def State.digest (s : State) : Option (List Byte) :=
  if digestValid s then some (digestBytes s.use256 s.hash) else none

/-- The 512-bit `digest` bus, byte `o[j]` at bits `[8*j + 7 : 8*j]`, zero above a 256-bit digest (R58). -/
def State.digestBus (s : State) : Option Vec := s.digest.map busOfBytes

/-- The output ports of one core instance (R80). -/
structure OutputPorts where
  /-- `cmd_ready`: the core can accept a command. -/
  cmdReady : Bool
  /-- `digest`, which carries a value to read only while `digest_valid` is 1. -/
  digest : Option Vec
  /-- `digest_valid`. -/
  digestValid : Bool
  /-- `phase`. -/
  phase : BitVec 2
  /-- `err`. -/
  err : Bool
  /-- `err_cause`. -/
  errCause : BitVec 3
deriving DecidableEq, Repr

/-- What the output ports show between two steps. Every command has completed by then, so `cmd_ready` is 1 (R81). -/
def State.outputs (s : State) : OutputPorts :=
  { cmdReady := true, digest := s.digestBus, digestValid := digestValid s
    phase := s.phase.code, err := s.err, errCause := s.errCause }

end Sys2Proof.Machine
end

