-- ==== Sys2Proof/Machine/Streaming.lean ====
section
/-! DEFINITION. Machine/Streaming.lean: the commands `NOP`, `INIT`, `BLOCK` and `LAST` (`44_streaming_commands.md` R163
to R166). A command not admitted in the phase takes the protocol fault (R191 to R193), which is a next state. -/

namespace Sys2Proof.Machine

/-- `NOP`: admitted in every phase, changes nothing (R163). -/
def execNop (s : State) : Host.Outcome State Fault Refusal := .next s

/-- `INIT v256`: admitted in every phase; a fresh context, and the fault flag cleared (R164, R195). -/
def execInit (v256 : Bool) (s : State) : Host.Outcome State Fault Refusal :=
  .next (clearFault (enterPhase .absorb (createContext v256 s)))

/-- `BLOCK`: admitted in `ABSORB`; `block <- REV64(DataIn())`, then `ABSORB(512)`; the phase stays (R165). -/
def execBlock (s : State) : Host.Outcome State Fault Refusal :=
  match s.phase with
  | .idle => .next (raiseFault .notInitialised s)
  | .padded => .next (raiseFault .alreadyPadded s)
  | .done => .next (raiseFault .alreadyFinal s)
  | .absorb => .next (absorbBlock chunkBits (loadBlock (rev64 (dataBytes s)) s))

/-- `LAST len`: admitted in `ABSORB`; `block <- REV64(PAD(DataIn(), len))`, then `ABSORB(8 * len)`, then
`phase <- PADDED` (R166). -/
def execLast (len : BitVec 6) (s : State) : Host.Outcome State Fault Refusal :=
  match s.phase with
  | .idle => .next (raiseFault .notInitialised s)
  | .padded => .next (raiseFault .alreadyPadded s)
  | .done => .next (raiseFault .alreadyFinal s)
  | .absorb =>
    .next (enterPhase .padded
      (absorbBlock (tailBits len) (loadBlock (rev64 (padTail (dataBytes s) len)) s)))

end Sys2Proof.Machine
end

