-- ==== Sys2Proof/Machine/Dispatch.lean ====
section
/-! DEFINITION. Machine/Dispatch.lean: one arm per command of `opcode_table.json`, each one call of its meaning. -/

namespace Sys2Proof.Machine

/-- The effect of a decoded command. -/
def exec (i : Instr) (s : State) : Host.Outcome State Fault Refusal :=
  match i with
  | .nop => Sys2Proof.Machine.execNop s
  | .init v256 => Sys2Proof.Machine.execInit v256 s
  | .block => Sys2Proof.Machine.execBlock s
  | .last len => Sys2Proof.Machine.execLast len s
  | .final => Sys2Proof.Machine.execFinal s

end Sys2Proof.Machine
end

