-- ==== Sys2Proof/Machine/Sequencer.lean ====
section
/-! DEFINITION. Machine/Sequencer.lean: the core sequencer (`00_scope.md` R12): acceptance of a command
(`30_encoding.md` R81), the order of the checks (`60_exceptions.md` R192), reset and the idle cycle. -/

namespace Sys2Proof.Machine

/-- An accepted word: `data_in` is sampled with it (R81); it is decoded from the word alone, an illegal word is refused
with `ILLEGAL_CMD` whatever the phase, and a legal one is executed (R86, R192). -/
def acceptCommand (word : CommandWord) (data : Vec) (s : State) : Host.Outcome State Fault Refusal :=
  match Sys2Proof.decode word with
  | .ok i => exec i (sampleData data s)
  | .error _ => .next (raiseFault .illegalCmd (sampleData data s))

/-- What the core does at a rising edge with the given inputs: reset if `rst` is 1, else acceptance if `cmd_valid` is 1,
else nothing (R81, R220). -/
def runCycle (c : InputCycle) (s : State) : Host.Outcome State Fault Refusal :=
  if c.rst then .next (hardwareReset s)
  else if c.cmdValid then acceptCommand c.cmd c.dataIn s
  else .next s

/-- One step: the host's next cycle is taken and run. A host that presents nothing leaves every register as it is
(R81, R207; log entry 16). -/
def sequencerStep (s : State) : Host.Outcome State Fault Refusal :=
  match s.inputs with
  | [] => .next s
  | c :: _ => runCycle c (dropInput s)

/-- `cmd_valid = 1` with the given word and data, presented before everything else that waits. -/
def presentFirst (word : CommandWord) (data : Vec) (s : State) : State :=
  { s with inputs := { rst := false, cmdValid := true, cmd := word, dataIn := data } :: s.inputs }

end Sys2Proof.Machine
end

