-- ==== Sys2Proof/Machine/Step.lean ====
section
/-! DEFINITION. Machine/Step.lean: the step of the machine, and the place where it takes its next command. -/

namespace Sys2Proof.Machine

/-- One step of one core instance (R64: commands run one at a time, in the order they are accepted). -/
def step (s : State) : Host.Outcome State Fault Refusal := sequencerStep s

/-- `s` with the given command presented on the command port in the next cycle; the data port carries what `s` last
sampled. There is no stored program to write to (R31, R67; log entry 4). -/
def State.withFetchWord (s : State) (nbits w : Nat) : State :=
  presentFirst (BitVec.ofNat 16 (w % 2 ^ nbits)) s.dataIn s

end Sys2Proof.Machine
end

