-- ==== Sys2Proof/Machine/HostDriver.lean ====
section
/-! DEFINITION. Machine/HostDriver.lean: the second agent of `00_scope.md` R12, the host, as far as `30_encoding.md`
describes it: the command lines of its assembler (R90, R91), the pseudo-commands `Init`, `Update`, `Digest` with the
tail the host keeps (R92 to R94), and the one-shot sequence (R96). All of it only builds input cycles; nothing here is
state of the core (R36). -/

namespace Sys2Proof.Machine

/-- One command line: a mnemonic and, for `BLOCK` and `LAST`, the external bytes in message order (R90). -/
inductive CommandLine where
  | nop
  /-- `INIT 256` (also `INIT256`) for `true`, `INIT 512` (also `INIT512`) for `false` (R91). -/
  | init (v256 : Bool)
  | block (bytes : List Byte)
  | last (len : BitVec 6) (bytes : List Byte)
  | final
deriving DecidableEq, Repr

/-- The command a line stands for (R90). -/
def CommandLine.instr (c : CommandLine) : Instr :=
  match c with
  | .nop => .nop
  | .init v256 => .init v256
  | .block _ => .block
  | .last len _ => .last len
  | .final => .final

/-- The data bus a line drives: `d[0]` first, and zero on the bytes `d[len] .. d[63]` of a `LAST` (R57, R90).
DESIGN CHOICE, unsafe, log entry 20: R90 gives a line exactly 64 bytes for `BLOCK` and `len` for `LAST` and does not say
what another length does; a line short of them is filled with zeros, which the core absorbs, and the bytes beyond them
are dropped. -/
def CommandLine.data (c : CommandLine) : Vec :=
  match c with
  | .nop => 0
  | .init _ => 0
  | .block bytes => busOfBytes (bytes.take 64)
  | .last len bytes => busOfBytes (bytes.take len.toNat)
  | .final => 0

/-- The cycle in which the host presents a command with the given data bus (R80, R81). -/
def commandCycle (i : Instr) (data : Vec) : InputCycle :=
  { rst := false, cmdValid := true, cmd := encode i, dataIn := data }

/-- The cycle in which the host presents a line (R90). -/
def CommandLine.cycle (c : CommandLine) : InputCycle := commandCycle c.instr c.data

/-- Bytes `64*i` to `64*i + 63` of a byte sequence (R93, R96). -/
def chunkAt (bytes : List Byte) (i : Nat) : List Byte := (bytes.drop (64 * i)).take 64

/-- One `BLOCK` for each full chunk, in order (R93, R96). -/
def blockLines (bytes : List Byte) : List CommandLine :=
  (List.range (bytes.length / 64)).map fun i => .block (chunkAt bytes i)

/-- What is left after the full chunks: fewer than 64 bytes (R93, R96). -/
def tailOf (bytes : List Byte) : List Byte := bytes.drop (64 * (bytes.length / 64))

/-- The lines of `Digest()`: `LAST length(tail) tail`, also when the tail is empty, then `FINAL` (R94). -/
def digestLines (tail : List Byte) : List CommandLine :=
  [.last (BitVec.ofNat 6 tail.length) tail, .final]

/-- The host's own state for one digest: the residual tail it carries between calls (R92, R93). -/
structure HostContext where
  tail : List Byte
deriving DecidableEq, Repr

/-- `Init(variant)`: an empty tail, and `INIT variant` (R92). -/
def hostInit (v256 : Bool) : HostContext × List CommandLine := ({ tail := [] }, [.init v256])

/-- `Update(bytes)`: append to the tail, then a `BLOCK` for every 64 bytes; nothing is padded (R93). -/
def hostUpdate (h : HostContext) (bytes : List Byte) : HostContext × List CommandLine :=
  ({ tail := tailOf (h.tail ++ bytes) }, blockLines (h.tail ++ bytes))

/-- A sequence of `Update` calls (R93). -/
def hostUpdates (h : HostContext) (calls : List (List Byte)) : HostContext × List CommandLine :=
  match calls with
  | [] => (h, [])
  | bytes :: rest =>
    let first := hostUpdate h bytes
    let others := hostUpdates first.1 rest
    (others.1, first.2 ++ others.2)

/-- `Digest()` (R94). -/
def hostDigest (h : HostContext) : List CommandLine := digestLines h.tail

/-- The one-shot sequence for a whole message: `INIT`, the full chunks, the tail, `FINAL` (R96). -/
def oneShot (v256 : Bool) (message : List Byte) : List CommandLine :=
  .init v256 :: (blockLines message ++ digestLines (tailOf message))

end Sys2Proof.Machine
end

