-- ==== Sys2Proof/Machine/Reference.lean ====
section
/-! DEFINITION. Machine/Reference.lean: the function the whole core computes, from a message to its digest
(`45_finalization.md` R183), written on values, with no state machine, commands or buses. -/

namespace Sys2Proof.Machine

/-- The three running values `h`, `N`, `S` of R183. -/
structure HashRun where
  h : Vec
  N : Vec
  S : Vec
deriving DecidableEq, Repr

/-- Sixty-four external bytes from a sequence, zero where it has ended. -/
def bytes64Of (bytes : List Byte) : Bytes64 := fun j => bytes.getD j.val 0

/-- `h <- IV(variant); N <- ZERO; S <- ZERO` (R183). -/
def hashStart (v256 : Bool) : HashRun := { h := ivOf v256, N := 0, S := 0 }

/-- `h <- G(N, h, m); N <- ADD512(N, bits); S <- ADD512(S, m)` (R183). -/
def hashAbsorb (bits : Nat) (m : Vec) (r : HashRun) : HashRun :=
  { h := compress r.N r.h m, N := add512 r.N (BitVec.ofNat 512 bits), S := add512 r.S m }

/-- The run over the full chunks of a message, in order (R183). -/
def hashChunks (v256 : Bool) (message : List Byte) : HashRun :=
  (List.range (message.length / 64)).foldl
    (fun r i => hashAbsorb 512 (rev64 (bytes64Of (chunkAt message i))) r) (hashStart v256)

/-- The run over the full chunks and the padded tail (R183). -/
def hashMessage (v256 : Bool) (message : List Byte) : HashRun :=
  let bl := message.length % 64
  hashAbsorb (8 * bl) (rev64 (padTail (bytes64Of (tailOf message)) (BitVec.ofNat 6 bl)))
    (hashChunks v256 message)

/-- The two closing folds (R183). -/
def hashClose (r : HashRun) : Vec := compress 0 (compress 0 r.h r.N) r.S

/-- The digest of a message: Streebog-256 for `true`, Streebog-512 for `false` (R183). -/
def streebog (v256 : Bool) (message : List Byte) : List Byte :=
  digestBytes v256 (hashClose (hashMessage v256 message))

end Sys2Proof.Machine
end

