-- ==== Sys2Proof/Safety.lean ====
section
/-! DEFINITION. Safety.lean: what counts as a safe run of this core, in the terms the statements use: when a run has
ended well (`70_reset_and_hazards.md` R230), which command is admitted in which phase (`60_exceptions.md` R191), the
transitions of the phase (`10_state.md` R27) and the invariant of the state (R25, R29, R35). -/

namespace Sys2Proof.Machine

/-- A run on one message has ended well: `phase = DONE` with `err = 0` (R230). A state with `err = 1` never meets it,
whatever its phase (R193). -/
abbrev Completed (s : State) : Prop := s.phase = .done ∧ s.err = false

/-- The admission matrix: the cause for which a legal command is refused in a phase, `none` where it executes (R191). -/
def admissionCause (i : Instr) (p : Phase) : Option FaultCause :=
  match i, p with
  | .nop, _ => none
  | .init _, _ => none
  | .block, .idle => some .notInitialised
  | .block, .absorb => none
  | .block, .padded => some .alreadyPadded
  | .block, .done => some .alreadyFinal
  | .last _, .idle => some .notInitialised
  | .last _, .absorb => none
  | .last _, .padded => some .alreadyPadded
  | .last _, .done => some .alreadyFinal
  | .final, .idle => some .notInitialised
  | .final, .absorb => some .notPadded
  | .final, .padded => none
  | .final, .done => some .alreadyFinal

/-- The phase a command that executes leads to (R27). -/
def phaseAfter (i : Instr) (p : Phase) : Phase :=
  match i with
  | .nop => p
  | .init _ => .absorb
  | .block => p
  | .last _ => .padded
  | .final => .done

/-- Two states agree on everything a core instance holds (R20), whatever the model's own fields are. -/
abbrev SameCore (s t : State) : Prop :=
  s.hash = t.hash ∧ s.n = t.n ∧ s.sigma = t.sigma ∧ s.block = t.block ∧ s.blockSize = t.blockSize ∧
  s.use256 = t.use256 ∧ s.phase = t.phase ∧ s.err = t.err ∧ s.errCause = t.errCause

/-- Two states agree on everything a core instance holds but the current block and its size. -/
abbrev SameButBlock (s t : State) : Prop :=
  s.hash = t.hash ∧ s.n = t.n ∧ s.sigma = t.sigma ∧ s.use256 = t.use256 ∧ s.phase = t.phase ∧
  s.err = t.err ∧ s.errCause = t.errCause

/-- R29: `err = 0` exactly when `err_cause = 0`; R191: codes 6 and 7 are never written. -/
abbrev FaultStatusOk (s : State) : Prop :=
  (s.err = false ↔ s.errCause = 0) ∧ s.errCause.toNat ≤ 5

/-- The context right after `INIT`, before any `BLOCK` (R35 item 5). -/
abbrev FreshContext (s : State) : Prop :=
  s.hash = ivOf s.use256 ∧ s.n = 0 ∧ s.sigma = 0 ∧ s.block = 0 ∧ s.blockSize = 0

/-- What an `ABSORB` context is: fresh, or last given a full chunk, so that `n` counts whole chunks (R35, R168). -/
abbrev AbsorbingContext (s : State) : Prop :=
  FreshContext s ∨ (s.blockSize = 512 ∧ s.n.toNat % 512 = 0)

/-- What a `PADDED` or `DONE` context is: the last block was a tail of `block_size / 8` bytes, at most 63, under the
padding delimiter, and `n` is a multiple of 512 plus its length (R25, R161, R168). -/
abbrev PaddedContext (s : State) : Prop :=
  s.blockSize.toNat % 8 = 0 ∧ s.blockSize.toNat ≤ 504 ∧ s.n.toNat % 512 = s.blockSize.toNat ∧
  s.block.toNat / 2 ^ s.blockSize.toNat = 1

/-- The invariant of a core instance after its first reset (R25, R29, R35). In `IDLE` no context exists and the data
registers may hold anything (R27, R38). -/
def State.Inv (s : State) : Prop :=
  FaultStatusOk s ∧
  match s.phase with
  | .idle => True
  | .absorb => AbsorbingContext s
  | .padded => PaddedContext s
  | .done => PaddedContext s

end Sys2Proof.Machine
end

