-- ==== Sys2Proof/Certificates/Slice0/Obligations.lean ====
section
/-! DEFINITION. Certificates/Slice0/Obligations.lean: the statements for the provers, from the numbered rules of `spec/`.
A statement about a next state names every field that changes; all others are those of the state before. -/

open Sys2Proof Sys2Proof.Machine

/-! ### Encoding -/

/-- Words written out from the bit patterns of R83 decode to the commands they stand for (R82 to R85, R89). -/
def Obligations.ListedWordsDecodeAsTheTableSays : Prop :=
  decode 0x0000 = .ok .nop ∧
  decode 0x1000 = .ok (.init false) ∧ decode 0x1040 = .ok (.init true) ∧
  decode 0x2000 = .ok .block ∧
  decode 0x3000 = .ok (.last 0) ∧ decode 0x3008 = .ok (.last 8) ∧ decode 0x303F = .ok (.last 63) ∧
  decode 0x4000 = .ok .final

/-- No bit of an encoding is dropped: the decoder gives back every well-formed command (R83 to R85, R89). -/
def Obligations.DecodeOfEncodeIsTheCommand : Prop :=
  ∀ i : Instr, i.wellFormed = true → decode (encode i) = .ok i

/-- A legal word has one meaning and a command one word: encoding what was decoded gives the word back (R89). -/
def Obligations.EncodeOfDecodeIsTheWord : Prop :=
  ∀ (w : CommandWord) (i : Instr), decode w = .ok i → encode i = w

/-- R83: the five rows with their match and mask; a word selects the command of a row exactly when
`(w and mask) = match`; no word selects two rows; an opcode outside the map is refused. -/
def Obligations.OpcodeRowsSelectTheirCommands : Prop :=
  (opcodeTable.map fun r => (r.mnemonic, r.pattern, r.mask)) =
    [("NOP", 0x0000, 0xFFFF), ("INIT", 0x1000, 0xFFBF), ("BLOCK", 0x2000, 0xFFFF),
     ("LAST", 0x3000, 0xFFC0), ("FINAL", 0x4000, 0xFFFF)] ∧
  (∀ (w : CommandWord), ∀ r ∈ opcodeTable, r.selects w ↔ ∃ i, decode w = .ok i ∧ i.row = r) ∧
  (∀ (w : CommandWord), ∀ r ∈ opcodeTable, ∀ r' ∈ opcodeTable, r.selects w → r'.selects w → r = r') ∧
  (∀ (w : CommandWord), 5 ≤ (w.extractLsb' 12 4).toNat → ∃ e, decode w = .error e)

/-- R86: a word is illegal exactly when one of the four clauses holds, and an accepted illegal word raises
`ILLEGAL_CMD` (code 1) in every phase: no data register and no phase changes. -/
def Obligations.IllegalWordsAreRefused : Prop :=
  (∀ w : CommandWord,
    (∃ e, decode w = .error e) ↔
      (5 ≤ (w.extractLsb' 12 4).toNat ∨ w.extractLsb' 7 5 ≠ 0 ∨
       (w.getLsbD 6 = true ∧ w.extractLsb' 12 4 ≠ 1) ∨
       (w.extractLsb' 0 6 ≠ 0 ∧ w.extractLsb' 12 4 ≠ 3))) ∧
  (∀ (s : State) (w : CommandWord) (d : Vec) (e : DecodeRefusal) (rest : List InputCycle),
    decode w = .error e → s.inputs = { rst := false, cmdValid := true, cmd := w, dataIn := d } :: rest →
      step s = .next { s with
        inputs := rest, dataIn := d, err := true, errCause := if s.err then s.errCause else 1 })

/-- R85: every 6-bit `len` is legal; the bit length formed from it is `8 * len`, at most 504, and `block_size` is its
zero extension, the length big-endian in the last two bytes; a full chunk uses the constant 512. -/
def Obligations.TailBitLengthIsEightTimesLen : Prop :=
  (∀ len : BitVec 6, (tailBits len).toNat = 8 * len.toNat ∧ (tailBits len).toNat ≤ 504 ∧
    (blockSizeOf (tailBits len)).toNat = 8 * len.toNat ∧
    byteAt (blockSizeOf (tailBits len)) 62 = (tailBits len).extractLsb' 8 8 ∧
    byteAt (blockSizeOf (tailBits len)) 63 = (tailBits len).extractLsb' 0 8 ∧
    ∀ i : Fin 64, i.val < 62 → byteAt (blockSizeOf (tailBits len)) i = 0) ∧
  (∀ len : BitVec 6, decode (0x3000 + len.setWidth 16) = .ok (.last len)) ∧
  chunkBits.toNat = 512 ∧ (blockSizeOf chunkBits).toNat = 512

/-! ### The step -/

/-- When the host's next cycle presents the word of a well-formed command, the step is that command's `exec`, on the
state from which the cycle is taken and whose data port holds the sampled data (R64, R81). The queue of input cycles
and the port field are the model's own, log entries 4 and 5. -/
def Obligations.StepRunsTheDecodedCommand : Prop :=
  ∀ (s : State) (c : InputCycle) (rest : List InputCycle) (i : Instr),
    s.inputs = c :: rest → c.rst = false → c.cmdValid = true → decode c.cmd = .ok i → i.wellFormed = true →
      step s = exec i { s with inputs := rest, dataIn := c.dataIn }

/-- With nothing presented, or with `cmd_valid = 0`, nothing is accepted and no register changes (R81, R207). That an
empty queue is such a cycle is the model's choice, log entry 16. -/
def Obligations.StepWithoutCommandKeepsEveryRegister : Prop :=
  (∀ s : State, s.inputs = [] → step s = .next s) ∧
  (∀ (s : State) (c : InputCycle) (rest : List InputCycle),
    s.inputs = c :: rest → c.rst = false → c.cmdValid = false → step s = .next { s with inputs := rest })

/-- `rst = 1` at an edge, whatever stands on the command port: `IDLE`, `err = 0`, `err_cause = 0`, ready, no valid
digest (R220). Nothing is said of the data registers, which reset gives no value (log entry 2). -/
def Obligations.HardwareResetEntersIdle : Prop :=
  ∀ (s : State) (c : InputCycle) (rest : List InputCycle),
    s.inputs = c :: rest → c.rst = true →
      ∃ t, step s = .next t ∧ t.phase = .idle ∧ t.err = false ∧ t.errCause = 0 ∧ t.inputs = rest ∧
        t.outputs.cmdReady = true ∧ t.outputs.digestValid = false

/-- What the spec gives a machine right after reset (R38, R220): the control registers. -/
def Obligations.ResetStateIsIdleWithoutFault : Prop :=
  State.reset.phase = .idle ∧ State.reset.err = false ∧ State.reset.errCause = 0 ∧
  State.reset.outputs.phase = 0 ∧ State.reset.outputs.cmdReady = true ∧ State.reset.outputs.digestValid = false

/-- Every step keeps the invariant of a core instance (`State.Inv`; R25, R29, R35, R161, R168, R191). -/
def Obligations.EveryStepKeepsTheContextInvariant : Prop :=
  ∀ s t : State, s.Inv → step s = .next t → t.Inv

/-- The machine after reset meets the invariant. -/
def Obligations.ResetStateMeetsTheContextInvariant : Prop :=
  State.reset.Inv

/-- The core has no stopping fault and refuses no command outright: every step of every state answers a next
state (R190, R193: a fault is a status, and the next command is decoded normally). That a fault does not end the run is
the model's choice between R193's two sentences, log entry 6. -/
def Obligations.EveryStepCompletes : Prop :=
  ∀ s : State, ∃ t, step s = .next t

/-! ### The commands -/

/-- R163: `NOP` is 0x0000, admitted in every phase, and the state after it is the state before. -/
def Obligations.NopChangesNothing : Prop :=
  decode 0x0000 = .ok .nop ∧ encode .nop = 0x0000 ∧ ∀ s : State, exec .nop s = .next s

/-- R164: `INIT` is 0x1000 or 0x1040; in every phase it creates the context and clears the fault flag; two in a row
equal the second; the data port is ignored; a word with opcode 1 and nonzero `len` or `rsv` bits is illegal. -/
def Obligations.InitCreatesAFreshContext : Prop :=
  decode 0x1000 = .ok (.init false) ∧ decode 0x1040 = .ok (.init true) ∧
  (∀ (v : Bool) (s : State), exec (.init v) s = .next { s with
    use256 := v
    hash := if v then 0x01010101010101010101010101010101010101010101010101010101010101010101010101010101010101010101010101010101010101010101010101010101#512 else 0
    n := 0, sigma := 0, block := 0, blockSize := 0
    phase := .absorb, err := false, errCause := 0 }) ∧
  (∀ (v v' : Bool) (s t : State), exec (.init v) s = .next t → exec (.init v') t = exec (.init v') s) ∧
  (∀ w : CommandWord, w.extractLsb' 12 4 = 1 → (w.extractLsb' 0 6 ≠ 0 ∨ w.extractLsb' 7 5 ≠ 0) →
    ∃ e, decode w = .error e)

/-- R165: `BLOCK` is 0x2000. In `ABSORB` the block is the byte reversal of the data port, `block_size` is 512, the hash
is `G` of the old `n` and `hash`, and `n` and `sigma` grow by `block_size` and `block`; the phase and everything else
stay. In another phase only `err` and `err_cause` change. The last clause is the rule's example. -/
def Obligations.BlockAbsorbsTheChunk : Prop :=
  decode 0x2000 = .ok .block ∧
  (∀ s : State, s.phase = .absorb → exec .block s = .next { s with
    block := rev64 (dataBytes s)
    blockSize := 512
    hash := compress s.n s.hash (rev64 (dataBytes s))
    n := add512 s.n 512
    sigma := add512 s.sigma (rev64 (dataBytes s)) }) ∧
  (∀ s : State, s.phase = .idle →
    exec .block s = .next { s with err := true, errCause := if s.err then s.errCause else 2 }) ∧
  (∀ s : State, s.phase = .padded →
    exec .block s = .next { s with err := true, errCause := if s.err then s.errCause else 3 }) ∧
  (∀ s : State, s.phase = .done →
    exec .block s = .next { s with err := true, errCause := if s.err then s.errCause else 5 }) ∧
  (∀ s : State, s.phase = .absorb → s.hash = 0 → s.n = 0 → s.sigma = 0 →
    s.dataIn = busOfBytes ((List.range 64).map (BitVec.ofNat 8)) →
    ∃ t, exec .block s = .next t ∧ t.block = 0x3f3e3d3c3b3a393837363534333231302f2e2d2c2b2a292827262524232221201f1e1d1c1b1a191817161514131211100f0e0d0c0b0a09080706050403020100#512 ∧ t.n = 512 ∧ t.sigma = t.block ∧
      t.hash = 0xf44c6364053a110c92a8ca18bb8ac31c16de18f7a885ea6613ff2fed5edb92857b409e6786db709cc56048e9286ee002a5e74e5bb0987b8433eb9052dcb32a08#512)

/-- R166: `LAST len` is 0x3000 + `len`. In `ABSORB` the block is the byte reversal of the padded tail, `block_size` is
`8 * len`, `hash`, `n`, `sigma` are absorbed as for a chunk and the phase becomes `PADDED`; everything else stays. In
another phase only `err` and `err_cause` change. The last clause is the rule's example. -/
def Obligations.LastAbsorbsThePaddedTail : Prop :=
  (∀ len : BitVec 6, decode (0x3000 + len.setWidth 16) = .ok (.last len)) ∧
  (∀ (s : State) (len : BitVec 6), s.phase = .absorb → exec (.last len) s = .next { s with
    block := rev64 (padTail (dataBytes s) len)
    blockSize := BitVec.ofNat 512 (8 * len.toNat)
    hash := compress s.n s.hash (rev64 (padTail (dataBytes s) len))
    n := add512 s.n (BitVec.ofNat 512 (8 * len.toNat))
    sigma := add512 s.sigma (rev64 (padTail (dataBytes s) len))
    phase := .padded }) ∧
  (∀ (s : State) (len : BitVec 6), s.phase = .idle →
    exec (.last len) s = .next { s with err := true, errCause := if s.err then s.errCause else 2 }) ∧
  (∀ (s : State) (len : BitVec 6), s.phase = .padded →
    exec (.last len) s = .next { s with err := true, errCause := if s.err then s.errCause else 3 }) ∧
  (∀ (s : State) (len : BitVec 6), s.phase = .done →
    exec (.last len) s = .next { s with err := true, errCause := if s.err then s.errCause else 5 }) ∧
  (∀ s : State, s.phase = .absorb → s.hash = 0 → s.n = 0 → s.sigma = 0 →
    ∃ t, exec (.last 0) s = .next t ∧ t.block = 1 ∧ t.n = 0 ∧ t.sigma = 1 ∧
      t.hash = 0xae9e6751f6fc67c72a0256e7095357f80b040599a4dad6ca2096c56de2d05e399d04abddb53ce850aae44685231ede380963ba6c8c4900a40368b62b33893cda#512)

/-- The mandatory empty tail (R166, R167): `LAST 0` in `ABSORB` sets `block` to 1 and `block_size` to 0, leaves `n` as it
is and adds 1 to `sigma`, whatever the data port carries. -/
def Obligations.EmptyTailAbsorbsTheDelimiterAlone : Prop :=
  ∀ s : State, s.phase = .absorb → exec (.last 0) s = .next { s with
    block := 1, blockSize := 0, hash := compress s.n s.hash 1, sigma := add512 s.sigma 1, phase := .padded }

/-- R180: `FINAL` is 0x4000. In `PADDED` the hash is folded with `n`, then the result with `sigma`, both with `ZERO` as
the counter; the phase becomes `DONE` and nothing else changes. In another phase only `err` and `err_cause`
change. The last clause is the rule's example. -/
def Obligations.FinalFoldsLengthThenChecksum : Prop :=
  decode 0x4000 = .ok .final ∧
  (∀ s : State, s.phase = .padded → exec .final s = .next { s with
    hash := compress 0 (compress 0 s.hash s.n) s.sigma, phase := .done }) ∧
  (∀ s : State, s.phase = .idle →
    exec .final s = .next { s with err := true, errCause := if s.err then s.errCause else 2 }) ∧
  (∀ s : State, s.phase = .absorb →
    exec .final s = .next { s with err := true, errCause := if s.err then s.errCause else 4 }) ∧
  (∀ s : State, s.phase = .done →
    exec .final s = .next { s with err := true, errCause := if s.err then s.errCause else 5 }) ∧
  (∀ s : State, s.phase = .padded → s.n = 0 → s.sigma = 1 →
    s.hash = 0xae9e6751f6fc67c72a0256e7095357f80b040599a4dad6ca2096c56de2d05e399d04abddb53ce850aae44685231ede380963ba6c8c4900a40368b62b33893cda#512 →
    ∃ t, exec .final s = .next t ∧ digestValid t = true ∧
      t.hash = 0x8a1a1c4cbf909f8ecb81cd1b5c713abad26a4cac2a5fda3ce86e352855712f36a7f0be98eb6cf51553b507b73a87e97946aebc29859255049f86aa09a25d948e#512)

/-! ### Protocol faults -/

/-- R191: the cause codes; a command runs exactly in the phases of the admission matrix and is refused with the matrix's
cause in the others; an illegal word is refused with `ILLEGAL_CMD` in every phase; codes 6 and 7 are never
written. -/
def Obligations.AdmissionFollowsTheMatrix : Prop :=
  (FaultCause.code .illegalCmd = 1 ∧ FaultCause.code .notInitialised = 2 ∧ FaultCause.code .alreadyPadded = 3 ∧
    FaultCause.code .notPadded = 4 ∧ FaultCause.code .alreadyFinal = 5) ∧
  (∀ (i : Instr) (s : State) (c : FaultCause), admissionCause i s.phase = some c →
    exec i s = .next { s with err := true, errCause := if s.err then s.errCause else c.code }) ∧
  (∀ (i : Instr) (s : State), admissionCause i s.phase = none →
    ∃ t, exec i s = .next t ∧ t.phase = phaseAfter i s.phase ∧
      ((t.err = s.err ∧ t.errCause = s.errCause) ∨ ((∃ v, i = .init v) ∧ t.err = false ∧ t.errCause = 0))) ∧
  (∀ (w : CommandWord) (d : Vec) (s : State) (e : DecodeRefusal), decode w = .error e →
    acceptCommand w d s = .next { s with
      dataIn := d, err := true, errCause := if s.err then s.errCause else 1 }) ∧
  (∀ s t : State, step s = .next t → 6 ≤ t.errCause.toNat → t.errCause = s.errCause)

/-- R28: while `err = 1` the core runs commands by the same rules. Two states that differ only in the fault flag and its
cause, under one command, end in states that differ at most there. -/
def Obligations.FaultFlagGatesNothing : Prop :=
  ∀ (i : Instr) (s : State) (e : Bool) (c : BitVec 3),
    ∃ t t', exec i s = .next t ∧ exec i { s with err := e, errCause := c } = .next t' ∧
      t' = { t with err := t'.err, errCause := t'.errCause }

/-- R196: while `err = 1` a fault changes nothing of it: a step that leaves `err` set leaves the first cause. -/
def Obligations.FirstFaultCauseIsKept : Prop :=
  (∀ (c : FaultCause) (s : State), s.err = true → raiseFault c s = s) ∧
  (∀ s t : State, step s = .next t → s.err = true → t.err = true → t.errCause = s.errCause)

/-- R195: `err` is cleared only by `rst` or by an accepted `INIT`, and then the context is gone: an `INIT` leaves a fresh
one in `ABSORB`, a reset leaves `IDLE`. -/
def Obligations.OnlyInitOrResetClearsTheFault : Prop :=
  ∀ s t : State, step s = .next t → s.err = true → t.err = false →
    t.errCause = 0 ∧
    ∃ c rest, s.inputs = c :: rest ∧
      ((c.rst = true ∧ t.phase = .idle) ∨
       (c.rst = false ∧ c.cmdValid = true ∧ ∃ v, decode c.cmd = .ok (.init v) ∧
         t.phase = .absorb ∧ t.use256 = v ∧ FreshContext t))

/-- R194 and R61: a step that raises a fault (`err` goes from 0 to 1) has no other effect on the core. -/
def Obligations.ARaisedFaultChangesNothingElse : Prop :=
  ∀ s t : State, step s = .next t → s.err = false → t.err = true →
    SameCore { t with err := false, errCause := s.errCause } s

/-! ### Who may write what -/

/-- R27: the phase codes, the phase after reset, and every transition there is. -/
def Obligations.PhaseMovesOnlyAsListed : Prop :=
  (Phase.code .idle = 0 ∧ Phase.code .absorb = 1 ∧ Phase.code .padded = 2 ∧ Phase.code .done = 3) ∧
  State.reset.phase = .idle ∧
  (∀ (v : Bool) (s : State), ∃ t, exec (.init v) s = .next t ∧ t.phase = .absorb) ∧
  (∀ s : State, s.phase = .absorb → ∃ t, exec .block s = .next t ∧ t.phase = .absorb) ∧
  (∀ (len : BitVec 6) (s : State), s.phase = .absorb → ∃ t, exec (.last len) s = .next t ∧ t.phase = .padded) ∧
  (∀ s : State, s.phase = .padded → ∃ t, exec .final s = .next t ∧ t.phase = .done) ∧
  (∀ s t : State, step s = .next t → t.phase ≠ s.phase →
    ∃ c rest, s.inputs = c :: rest ∧
      ((c.rst = true ∧ t.phase = .idle) ∨
       (c.rst = false ∧ c.cmdValid = true ∧
         ((∃ v, decode c.cmd = .ok (.init v) ∧ t.phase = .absorb) ∨
          (∃ len, decode c.cmd = .ok (.last len) ∧ s.phase = .absorb ∧ t.phase = .padded) ∨
          (decode c.cmd = .ok .final ∧ s.phase = .padded ∧ t.phase = .done)))))

/-- R22, R23, R132: outside `rst`, a step that changes `n` or `sigma` either runs an `INIT`, which makes them `ZERO`, or
adds `block_size` to `n` and `block` to `sigma`. -/
def Obligations.CounterAndChecksumOnlyAdd : Prop :=
  ∀ s t : State, step s = .next t → (∀ c rest, s.inputs = c :: rest → c.rst = false) →
    (t.n ≠ s.n ∨ t.sigma ≠ s.sigma) →
      (t.n = 0 ∧ t.sigma = 0 ∧
        ∃ c rest v, s.inputs = c :: rest ∧ c.cmdValid = true ∧ decode c.cmd = .ok (.init v)) ∨
      (s.phase = .absorb ∧ t.n = add512 s.n t.blockSize ∧ t.sigma = add512 s.sigma t.block)

/-- R26: outside `rst`, only an accepted `INIT` writes `use256`; the bit reaches no other register of a command that is
not an `INIT`. -/
def Obligations.VariantIsWrittenByInitAlone : Prop :=
  (∀ s t : State, step s = .next t → (∀ c rest, s.inputs = c :: rest → c.rst = false) →
    t.use256 ≠ s.use256 →
      ∃ c rest, s.inputs = c :: rest ∧ c.cmdValid = true ∧ decode c.cmd = .ok (.init t.use256)) ∧
  (∀ (i : Instr) (s : State) (b : Bool), (∀ v, i ≠ .init v) →
    ∃ t, exec i s = .next t ∧ exec i { s with use256 := b } = .next { t with use256 := b })

/-- R24, R25, R162, R165, R166: no command reads the `block` or the `block_size` that an earlier one left. R24 says so
of `block`; for `block_size` it follows from R162, where `ABSORB` writes the register before it reads it, and from R25,
R165 and R166, by which, of the commands, only `INIT` and that step write it. Two states that differ in these two registers alone end,
under one command, in states that differ at most there. -/
def Obligations.CurrentBlockIsNeverReadBack : Prop :=
  ∀ (i : Instr) (s : State) (b z : Vec),
    ∃ t t', exec i s = .next t ∧ exec i { s with block := b, blockSize := z } = .next t' ∧ SameButBlock t t'

/-- R57, R161: `NOP`, `INIT` and `FINAL` ignore the data port, and `LAST len` ignores its bytes `d[len..63]`. -/
def Obligations.IgnoredDataBytesReachNoRegister : Prop :=
  (∀ (i : Instr) (s : State) (d d' : Vec), (i = .nop ∨ (∃ v, i = .init v) ∨ i = .final) →
    ∃ t t', exec i { s with dataIn := d } = .next t ∧ exec i { s with dataIn := d' } = .next t' ∧ SameCore t t') ∧
  (∀ (len : BitVec 6) (s : State) (d d' : Vec),
    (∀ j : Fin 64, j.val < len.toNat → busByte d j = busByte d' j) →
    ∃ t t', exec (.last len) { s with dataIn := d } = .next t ∧
      exec (.last len) { s with dataIn := d' } = .next t' ∧ SameCore t t')

/-- R20, R81: the data sampled with one command is gone with the next: what the data port held before a step reaches no
register in it. (The port is a field of the model's own, log entry 5.) -/
def Obligations.EarlierPortDataIsNeverRead : Prop :=
  ∀ (s : State) (d : Vec),
    ∃ t t', step s = .next t ∧ step { s with dataIn := d } = .next t' ∧ SameCore t t'

/-- R13: the cycles from an `INIT` on, with no `rst` among them, determine every register and the digest, whatever the
two cores held before. -/
def Obligations.InputsSinceInitDetermineEveryRegister : Prop :=
  ∀ (s s' : State) (v : Bool) (d : Vec) (cycles : List InputCycle), (∀ c ∈ cycles, c.rst = false) →
    ∃ t t', core.run (cycles.length + 1) { s with inputs := commandCycle (.init v) d :: cycles } = .next t ∧
      core.run (cycles.length + 1) { s' with inputs := commandCycle (.init v) d :: cycles } = .next t' ∧
      SameCore t t' ∧ State.digest t = State.digest t'

/-- R182: in `DONE`, `BLOCK`, `LAST` and `FINAL` are refused with `ALREADY_FINAL` (code 5) and the hash keeps the digest;
only `INIT` and `rst` leave `DONE`; a step that stays in `DONE` shows the same digest after it. -/
def Obligations.AFinishedContextKeepsItsDigest : Prop :=
  (∀ (i : Instr) (s : State), s.phase = .done → (i = .block ∨ (∃ len, i = .last len) ∨ i = .final) →
    exec i s = .next { s with err := true, errCause := if s.err then s.errCause else 5 }) ∧
  (∀ s t : State, step s = .next t → s.phase = .done → t.phase ≠ .done →
    ∃ c rest, s.inputs = c :: rest ∧
      (c.rst = true ∨ (c.cmdValid = true ∧ ∃ v, decode c.cmd = .ok (.init v)))) ∧
  (∀ s t : State, step s = .next t → s.phase = .done → t.phase = .done →
    t.hash = s.hash ∧ t.use256 = s.use256 ∧ t.digest = s.digest)

/-! ### The datapath -/

/-- R110: `XOR512` is byte-wise, with its corner cases and its example. -/
def Obligations.XorIsBytewise : Prop :=
  (∀ (a b : Vec) (i : Fin 64), byteAt (xor512 a b) i = byteAt a i ^^^ byteAt b i) ∧
  (∀ a : Vec, xor512 a a = 0) ∧ (∀ a : Vec, xor512 a 0 = a) ∧
  (∀ a b : Vec, xor512 a b = xor512 b a) ∧
  (∀ a b c : Vec, xor512 (xor512 a b) c = xor512 a (xor512 b c)) ∧
  xor512 0x000102030405060708090a0b0c0d0e0f101112131415161718191a1b1c1d1e1f202122232425262728292a2b2c2d2e2f303132333435363738393a3b3c3d3e3f#512 (BitVec.allOnes 512) =
    0xfffefdfcfbfaf9f8f7f6f5f4f3f2f1f0efeeedecebeae9e8e7e6e5e4e3e2e1e0dfdedddcdbdad9d8d7d6d5d4d3d2d1d0cfcecdcccbcac9c8c7c6c5c4c3c2c1c0#512

/-- R52, R111: `Pi` is a permutation of the byte values; `SUB` maps each byte by it, moves none, and is a bijection on
vectors. -/
def Obligations.SubstituteIsABytewiseBijection : Prop :=
  Function.Bijective romPi ∧
  (∀ (v : Vec) (i : Fin 64), byteAt (sub v) i = romPi (byteAt v i)) ∧
  Function.Bijective sub ∧
  (∀ (v : Vec) (b : Byte), (∀ i, byteAt v i = b) → ∀ i, byteAt (sub v) i = romPi b) ∧
  romPi 0x00 = 0xFC ∧ romPi 0xFF = 0xB6 ∧ romPi 0x01 = 0xEE ∧ romPi 0xA5 = 0x00 ∧
  [romPi 2, romPi 3, romPi 4, romPi 5, romPi 6, romPi 7] = [0xDD, 0x11, 0xCF, 0x6E, 0x31, 0x16]

/-- R53: the formula of table `Tau`, and that it is an involution. -/
def Obligations.TauIsTheTransposeInvolution : Prop :=
  ∀ i : Fin 64, (romTau i).val = 8 * (i.val % 8) + i.val / 8 ∧ romTau (romTau i) = i

/-- R112: `PERM` is the transpose of the 8 by 8 byte matrix, an involution that keeps the diagonal and a vector of equal
bytes. -/
def Obligations.PermuteTransposesTheByteMatrix : Prop :=
  (∀ (v : Vec) (i : Fin 64), byteAt (perm v) i = byteAt v (romTau i)) ∧
  (∀ (v : Vec) (a b : Fin 8),
    byteAt (perm v) ⟨8 * a.val + b.val, by omega⟩ = byteAt v ⟨8 * b.val + a.val, by omega⟩) ∧
  (∀ v : Vec, perm (perm v) = v) ∧
  (∀ (v : Vec) (a : Fin 8), byteAt (perm v) ⟨9 * a.val, by omega⟩ = byteAt v ⟨9 * a.val, by omega⟩) ∧
  (∀ (v : Vec) (b : Byte), (∀ i, byteAt v i = b) → perm v = v) ∧
  perm 0x000102030405060708090a0b0c0d0e0f101112131415161718191a1b1c1d1e1f202122232425262728292a2b2c2d2e2f303132333435363738393a3b3c3d3e3f#512 =
    0x00081018202830380109111921293139020a121a222a323a030b131b232b333b040c141c242c343c050d151d252d353d060e161e262e363e070f171f272f373f#512

/-- R113: `l` is linear over GF(2), and the single bit `63 - j` selects row `j` of `A`. -/
def Obligations.LaneFunctionIsLinearOnTheRows : Prop :=
  (∀ x y : Lane, lane (x ^^^ y) = lane x ^^^ lane y) ∧ lane 0 = 0 ∧
  (∀ j : Fin 64, lane (BitVec.twoPow 64 (63 - j.val)) = romA j) ∧
  lane 0x8000000000000000 = 0x8E20FAA72BA0B470 ∧ lane 0x0000000000000001 = 0x641C314B2B8EE083 ∧
  lane 0xFFFFFFFFFFFFFFFF = 0xAB8EFF9EC7466498 ∧ lane 0x0123456789ABCDEF = 0xA49049A565BDC399

/-- R114: `LIN` maps each lane by `l` at its own place; it is linear and a bijection. -/
def Obligations.LinearTransformIsALanewiseBijection : Prop :=
  (∀ (v : Vec) (k : Fin 8), laneAt (lin v) k = lane (laneAt v k)) ∧
  (∀ a b : Vec, lin (xor512 a b) = xor512 (lin a) (lin b)) ∧ lin 0 = 0 ∧
  Function.Bijective lin

/-- R115: the fast form of `l` equals the bit-by-bit form for every lane, and every entry of the fast table is `l` of its
byte at its position. -/
def Obligations.FastTableEqualsTheBitwiseDefinition : Prop :=
  (∀ w : Lane, laneFast w = lane w) ∧
  (∀ (p : Fin 8) (b : Byte), fastTable p b = lane (b.setWidth 64 <<< (56 - 8 * p.val))) ∧
  (∀ (p : Fin 8) (b : Byte), fastTable p b =
    (List.finRange 8).foldl (fun u k => u ^^^ if b.getLsbD (7 - k.val) then romA ⟨8 * p.val + k.val, by omega⟩ else 0) 0) ∧
  (∀ p : Fin 8, fastTable p 0x00 = 0) ∧
  fastTable 0 0x80 = 0x8E20FAA72BA0B470 ∧ fastTable 0 0x01 = 0x83478B07B2468764 ∧
  fastTable 7 0x01 = 0x641C314B2B8EE083 ∧ fastTable 7 0xFF = 0x7C3B228621F1C57E ∧
  fastTable 3 0xA5 = 0xF2BC208BE914F3DA

/-- R54: within each group of eight rows, every row is the row before it with each of its bytes halved in GF(2^8) modulo
0x11d, so the table follows from its eight group-leading rows. -/
def Obligations.MatrixRowsFollowByHalving : Prop :=
  ∀ (p : Fin 8) (r : Fin 7) (q : Fin 8),
    let x : BitVec 9 := ((romA ⟨8 * p.val + r.val, by omega⟩).extractLsb' (8 * q.val) 8).setWidth 9
    (romA ⟨8 * p.val + r.val + 1, by omega⟩).extractLsb' (8 * q.val) 8 =
      ((if x.getLsbD 0 then x ^^^ 0x11D else x) >>> 1).setWidth 8

/-- R116: `LPS` is `LIN` after `PERM` after `SUB`; `SUB` and `PERM` commute; `LIN` commutes with neither; `LPS` is a
bijection. -/
def Obligations.PipelineOrderAndBijection : Prop :=
  (∀ v : Vec, lps v = lin (perm (sub v))) ∧
  (∀ v : Vec, sub (perm v) = perm (sub v)) ∧
  (∃ v : Vec, lin (sub v) ≠ sub (lin v)) ∧ (∃ v : Vec, lin (perm v) ≠ perm (lin v)) ∧
  Function.Bijective lps

/-- R130: `ADD512` is addition modulo 2^512 of the integers of R7, with its corner cases and its example. -/
def Obligations.AdderIsAdditionModulo512Bits : Prop :=
  (∀ a b : Vec, (add512 a b).toNat = (a.toNat + b.toNat) % 2 ^ 512) ∧
  (∀ a : Vec, add512 a 0 = a) ∧ (∀ a b : Vec, add512 a b = add512 b a) ∧
  (∀ a b c : Vec, add512 (add512 a b) c = add512 a (add512 b c)) ∧
  add512 (BitVec.allOnes 512) 1 = 0 ∧ add512 (BitVec.allOnes 512) (BitVec.allOnes 512) = BitVec.allOnes 512 - 1 ∧
  add512 (BitVec.twoPow 512 511) (BitVec.twoPow 512 511) = 0 ∧ add512 512 504 = 1016

/-- R131: the byte-serial adder, carries running from byte 63 to byte 0, equals `ADD512` for all operands. -/
def Obligations.ByteSerialAdderEqualsTheAdder : Prop :=
  ∀ a b : Vec, add512Serial a b = add512 a b

/-- R140: one key-schedule round is `LPS` of the key with the round constant; a key equal to the constant gives
`LPS(ZERO)`; the last clause is the rule's example. -/
def Obligations.KeyScheduleRoundFormula : Prop :=
  (∀ (key : Vec) (i : Fin 12), ks key i = lps (xor512 key (romC i))) ∧
  (∀ i : Fin 12, ks (romC i) i = lps 0) ∧
  ks 0 0 = 0x72f27059183db001139c1270f36a77e90d492dcec5de138b38990e1fb76acd2df4c41dab015767c60d94a03cac8adaad9ba321149627aab261ee3086cf81d2e5#512

/-- R141, R142: thirteen round keys, `K_1` the initial key and each other one `KS` of the one before it with the next
constant; `E` whitens with `K_1` and then, for each other key in order, applies `LPS` and that key. -/
def Obligations.CipherUsesThirteenRoundKeysInOrder : Prop :=
  ∀ key blk : Vec,
    (roundKeys key).length = 13 ∧ (roundKeys key)[0]? = some key ∧
    (∀ i : Fin 12, (roundKeys key)[i.val + 1]? = ((roundKeys key)[i.val]?).map fun k => ks k i) ∧
    enc key blk = (roundKeys key).tail.foldl (fun state k => xor512 (lps state) k) (xor512 blk key)

/-- R150: `G(N, h, m) = E(LPS(N xor h), m) xor h xor m`, and the rule's two examples. -/
def Obligations.CompressionFormula : Prop :=
  (∀ N h m : Vec, compress N h m = enc (lps (N ^^^ h)) m ^^^ h ^^^ m) ∧
  compress 0 0 0 =
    0x2a0e2b22fa59ee5c52e1c5b67d322cf4a7e32ae43e21ce04c9c0b31801474609ddbf4b1305f814bbffbdf4d4d19243e5cfd906ca3c7691482e5df4b8e167f4b4#512 ∧
  compress 0 0x01010101010101010101010101010101010101010101010101010101010101010101010101010101010101010101010101010101010101010101010101010101#512 0 =
    0x3941f3938f9f52737257483f620d45116412099b9adda13efbcb9287456ad3d5c9ec3702cc69220a5e6f4451ecbb7b67bd2a86b7f9cd70a2777581b838485eea#512

/-- R57, R160: `REV64` puts byte `d[63 - i]` at byte `i`, is its own inverse, and is the identity on the bus value. -/
def Obligations.ByteReversalIsBusIdentity : Prop :=
  (∀ (d : Bytes64) (i : Fin 64), byteAt (rev64 d) i = d i.rev) ∧
  (∀ d : Bytes64, rev64Out (rev64 d) = d) ∧ (∀ v : Vec, rev64 (rev64Out v) = v) ∧
  (∀ bus : Vec, rev64 (busByte bus) = bus) ∧
  (∀ b : Byte, rev64 (fun _ => b) = ofBytes fun _ => b) ∧
  rev64 (fun j => BitVec.ofNat 8 j.val) = 0x3f3e3d3c3b3a393837363534333231302f2e2d2c2b2a292827262524232221201f1e1d1c1b1a191817161514131211100f0e0d0c0b0a09080706050403020100#512

/-- R161: the padded tail keeps its first `bl` bytes, has 0x01 at offset `bl` and zeros after it, and as an internal
integer is `2^(8*bl)` plus the tail bytes read least significant first. -/
def Obligations.PaddingPutsTheDelimiterAboveTheTail : Prop :=
  (∀ (d : Bytes64) (bl : BitVec 6) (j : Fin 64),
    (j.val < bl.toNat → padTail d bl j = d j) ∧ (j.val = bl.toNat → padTail d bl j = 0x01) ∧
    (bl.toNat < j.val → padTail d bl j = 0x00)) ∧
  (∀ (bus : Vec) (bl : BitVec 6),
    (rev64 (padTail (busByte bus) bl)).toNat = 2 ^ (8 * bl.toNat) + bus.toNat % 2 ^ (8 * bl.toNat)) ∧
  (∀ d : Bytes64, rev64 (padTail d 0) = 1) ∧ (∀ d : Bytes64, byteAt (rev64 (padTail d 63)) 0 = 0x01) ∧
  rev64 (padTail (busByte (busOfBytes [0x61, 0x62, 0x63])) 3) = 0x01636261

/-- R181, R58: the digest bytes by index, 64 for the 512-bit variant and 32 for the 256-bit one; on the bus they are
`hash[511:0]`, or `hash[511:256]` below zeros. -/
def Obligations.DigestIsTheReversedTruncatedHash : Prop :=
  (∀ h : Vec, (digestBytes false h).length = 64 ∧
    ∀ j : Fin 64, (digestBytes false h)[j.val]? = some (byteAt h j.rev)) ∧
  (∀ h : Vec, (digestBytes true h).length = 32 ∧
    ∀ j : Fin 32, (digestBytes true h)[j.val]? = some (byteAt h ⟨31 - j.val, by omega⟩)) ∧
  (∀ s : State, s.phase = .done → s.use256 = false → s.digestBus = some s.hash) ∧
  (∀ s : State, s.phase = .done → s.use256 = true → s.digestBus = some (s.hash >>> 256))

/-- `digest_valid` is 1 exactly in `DONE` (R30); the model gives no digest to read in another phase (the model's choice,
log entry 9). -/
def Obligations.DigestIsReadableOnlyWhenDone : Prop :=
  ∀ s : State, (digestValid s = true ↔ s.phase = .done) ∧ (s.digest.isSome = true ↔ s.phase = .done) ∧
    (s.outputs.digest.isSome = true ↔ s.outputs.phase = 3)

/-! ### Whole computations -/

/-- R168: from any state, an `INIT`, `k` chunks and one tail leave `n` at `512 * k + 8 * len` and `sigma` at the sum of
the `k + 1` blocks, both modulo 2^512, in phase `PADDED`. -/
def Obligations.LengthAndChecksumAccounting : Prop :=
  ∀ (s : State) (v : Bool) (chunks : List Vec) (len : BitVec 6) (d : Vec),
    ∃ t : State, core.run (chunks.length + 2)
        { s with
          inputs := commandCycle (.init v) 0 ::
            (chunks.map (commandCycle .block) ++ [commandCycle (.last len) d]) } = .next t ∧
      t.phase = .padded ∧ t.err = false ∧
      t.n.toNat = (512 * chunks.length + 8 * len.toNat) % 2 ^ 512 ∧
      t.sigma.toNat = ((chunks.map BitVec.toNat).sum + (rev64 (padTail (busByte d) len)).toNat) % 2 ^ 512

/-- R183, R230: for every message and variant, from every state, the one-shot sequence of R96 ends the run well in
`DONE`, and the digest port then shows the digest that the function of R183 gives the message. -/
def Obligations.OneShotSequenceComputesStreebog : Prop :=
  ∀ (s : State) (v256 : Bool) (message : List Byte),
    ∃ t : State, core.run (oneShot v256 message).length
        { s with inputs := (oneShot v256 message).map CommandLine.cycle } = .next t ∧
      Completed t ∧ t.inputs = [] ∧ t.digest = some (streebog v256 message)

/-- R96: a message of `L` bytes takes `L div 64 + 3` commands. -/
def Obligations.OneShotCommandCount : Prop :=
  ∀ (v256 : Bool) (message : List Byte), (oneShot v256 message).length = message.length / 64 + 3

/-- R93, R169: any sequence of `Update` calls issues the commands and leaves the tail of one call with all the bytes; the
tail stays under 64 bytes; `Init`, the calls and `Digest` together are the one-shot sequence of R96. -/
def Obligations.UpdateSplittingDoesNotMatter : Prop :=
  ∀ (v256 : Bool) (calls : List (List Byte)),
    hostUpdates (hostInit v256).1 calls = hostUpdate (hostInit v256).1 calls.flatten ∧
    (hostUpdates (hostInit v256).1 calls).1.tail.length < 64 ∧
    (hostInit v256).2 ++ (hostUpdates (hostInit v256).1 calls).2 ++
        hostDigest (hostUpdates (hostInit v256).1 calls).1 = oneShot v256 calls.flatten
end

