-- ==== Sys2Proof/Laws/Bytes.lean ====
section
/-! SUPPORT. Laws/Bytes.lean: reading a byte, lane or bus byte of a vector that was built from them, and extensionality
by bytes and by lanes. Proofs about transforms cite these and unfold no packing. -/

namespace Sys2Proof.Machine

variable {w : Nat}

theorem packFields_append (l : List (BitVec w)) (b : BitVec w) :
    packFields (l ++ [b]) = packFields l * 2 ^ w + b.toNat := by
  simp [packFields]

theorem packFields_lt (l : List (BitVec w)) : packFields l < 2 ^ (w * l.length) := by
  induction l using List.reverseRecOn with
  | nil => simp [packFields]
  | append_singleton l b ih =>
    rw [packFields_append, List.length_append, List.length_singleton, Nat.mul_add, Nat.mul_one, Nat.pow_add]
    have hb := b.isLt
    calc packFields l * 2 ^ w + b.toNat < packFields l * 2 ^ w + 2 ^ w := by omega
      _ = (packFields l + 1) * 2 ^ w := by ring
      _ ≤ 2 ^ (w * l.length) * 2 ^ w := Nat.mul_le_mul_right _ ih

/-- Digit `i`, counted from the most significant, of a packed list. -/
theorem packFields_digit (l : List (BitVec w)) (i : Nat) (h : i < l.length) :
    packFields l / 2 ^ (w * (l.length - 1 - i)) % 2 ^ w = l[i].toNat := by
  induction l using List.reverseRecOn with
  | nil => simp at h
  | append_singleton l b ih =>
    rw [packFields_append]
    simp only [List.length_append, List.length_singleton] at h ⊢
    by_cases hi : i = l.length
    · subst hi
      simp only [List.getElem_concat_length]
      have hb := b.isLt
      have h0 : l.length + 1 - 1 - l.length = 0 := by omega
      rw [h0, Nat.mul_zero, Nat.pow_zero, Nat.div_one, Nat.add_comm, Nat.add_mul_mod_self_right]
      exact Nat.mod_eq_of_lt hb
    · have hlt : i < l.length := by omega
      rw [List.getElem_append_left hlt, ← ih hlt]
      have he : l.length + 1 - 1 - i = (l.length - 1 - i) + 1 := by omega
      rw [he, Nat.mul_add, Nat.mul_one, Nat.pow_add, Nat.mul_comm (2 ^ (w * _)), ← Nat.div_div_eq_div_mul]
      have hb := b.isLt
      have hd : (packFields l * 2 ^ w + b.toNat) / 2 ^ w = packFields l := by
        rw [Nat.add_comm, Nat.add_mul_div_right _ _ (Nat.two_pow_pos w), Nat.div_eq_of_lt hb, Nat.zero_add]
      rw [hd]

theorem byteAt_toNat (v : Vec) (i : Fin 64) :
    (byteAt v i).toNat = v.toNat / 2 ^ (504 - 8 * i.val) % 2 ^ 8 := by
  simp [byteAt, Nat.shiftRight_eq_div_pow]

theorem laneAt_toNat (v : Vec) (k : Fin 8) :
    (laneAt v k).toNat = v.toNat / 2 ^ (448 - 64 * k.val) % 2 ^ 64 := by
  simp [laneAt, Nat.shiftRight_eq_div_pow]

theorem busByte_toNat (bus : Vec) (j : Fin 64) :
    (busByte bus j).toNat = bus.toNat / 2 ^ (8 * j.val) % 2 ^ 8 := by
  simp [busByte, Nat.shiftRight_eq_div_pow]

theorem ofBytes_toNat (f : Bytes64) : (ofBytes f).toNat = packFields ((List.finRange 64).map f) := by
  have h := packFields_lt ((List.finRange 64).map f)
  rw [List.length_map, List.length_finRange] at h
  exact (BitVec.toNat_ofNat _ _).trans (Nat.mod_eq_of_lt h)

theorem ofLanes_toNat (f : Fin 8 → Lane) : (ofLanes f).toNat = packFields ((List.finRange 8).map f) := by
  have h := packFields_lt ((List.finRange 8).map f)
  rw [List.length_map, List.length_finRange] at h
  exact (BitVec.toNat_ofNat _ _).trans (Nat.mod_eq_of_lt h)

/-- Byte `i` of a vector built from `f` is `f i`. -/
@[simp] theorem byteAt_ofBytes (f : Bytes64) (i : Fin 64) : byteAt (ofBytes f) i = f i := by
  apply BitVec.eq_of_toNat_eq
  have h := packFields_digit ((List.finRange 64).map f) i.val (by simp)
  simp only [List.length_map, List.length_finRange, List.getElem_map, List.getElem_finRange, Fin.cast_mk,
    Fin.eta] at h
  rw [byteAt_toNat, ofBytes_toNat, ← h]
  congr 3
  omega

/-- Lane `k` of a vector built from `f` is `f k`. -/
@[simp] theorem laneAt_ofLanes (f : Fin 8 → Lane) (k : Fin 8) : laneAt (ofLanes f) k = f k := by
  apply BitVec.eq_of_toNat_eq
  have h := packFields_digit ((List.finRange 8).map f) k.val (by simp)
  simp only [List.length_map, List.length_finRange, List.getElem_map, List.getElem_finRange, Fin.cast_mk,
    Fin.eta] at h
  rw [laneAt_toNat, ofLanes_toNat, ← h]
  congr 3
  omega

theorem getLsbD_byteAt (v : Vec) (i : Fin 64) (b : Nat) :
    (byteAt v i).getLsbD b = (decide (b < 8) && v.getLsbD (504 - 8 * i.val + b)) := by
  simp [byteAt, BitVec.getLsbD_extractLsb']

theorem getLsbD_laneAt (v : Vec) (k : Fin 8) (b : Nat) :
    (laneAt v k).getLsbD b = (decide (b < 64) && v.getLsbD (448 - 64 * k.val + b)) := by
  simp [laneAt, BitVec.getLsbD_extractLsb']

theorem getLsbD_busByte (bus : Vec) (j : Fin 64) (b : Nat) :
    (busByte bus j).getLsbD b = (decide (b < 8) && bus.getLsbD (8 * j.val + b)) := by
  simp [busByte, BitVec.getLsbD_extractLsb']

/-- A bus byte is the byte of the vector of the same value, counted from the other end (R57, R59). -/
theorem busByte_eq_byteAt_rev (bus : Vec) (j : Fin 64) : busByte bus j = byteAt bus j.rev := by
  unfold busByte byteAt
  congr 1
  simp only [Fin.val_rev]
  omega

/-- Two vectors with the same 64 bytes are equal (R7). -/
theorem eq_of_byteAt_eq {a b : Vec} (h : ∀ i, byteAt a i = byteAt b i) : a = b := by
  apply BitVec.eq_of_getLsbD_eq
  intro k hk
  have hi := congrArg (fun x => BitVec.getLsbD x (k % 8)) (h ⟨63 - k / 8, by omega⟩)
  simp only [getLsbD_byteAt] at hi
  have hm : k % 8 < 8 := Nat.mod_lt _ (by decide)
  have he : 504 - 8 * (63 - k / 8) + k % 8 = k := by omega
  simpa [hm, he] using hi

/-- Two vectors with the same eight lanes are equal (R8). -/
theorem eq_of_laneAt_eq {a b : Vec} (h : ∀ k, laneAt a k = laneAt b k) : a = b := by
  apply BitVec.eq_of_getLsbD_eq
  intro k hk
  have hi := congrArg (fun x => BitVec.getLsbD x (k % 64)) (h ⟨7 - k / 64, by omega⟩)
  simp only [getLsbD_laneAt] at hi
  have hm : k % 64 < 64 := Nat.mod_lt _ (by decide)
  have he : 448 - 64 * (7 - k / 64) + k % 64 = k := by omega
  simpa [hm, he] using hi

/-- A vector is built from its bytes. -/
@[simp] theorem ofBytes_byteAt (v : Vec) : ofBytes (byteAt v) = v :=
  eq_of_byteAt_eq fun i => by simp

/-- A vector is built from its lanes. -/
@[simp] theorem ofLanes_laneAt (v : Vec) : ofLanes (laneAt v) = v :=
  eq_of_laneAt_eq fun k => by simp

@[simp] theorem byteAt_xor (a b : Vec) (i : Fin 64) : byteAt (a ^^^ b) i = byteAt a i ^^^ byteAt b i := by
  simp [byteAt, BitVec.extractLsb'_xor]

@[simp] theorem laneAt_xor (a b : Vec) (k : Fin 8) : laneAt (a ^^^ b) k = laneAt a k ^^^ laneAt b k := by
  simp [laneAt, BitVec.extractLsb'_xor]

@[simp] theorem byteAt_zero (i : Fin 64) : byteAt 0 i = 0 := by simp [byteAt]

/-- Byte `j` of the bus that carries at most 64 bytes is the `j`-th of them, zero beyond their end. -/
theorem busByte_busOfBytes (bytes : List Byte) (hl : bytes.length ≤ 64) (j : Fin 64) :
    busByte (busOfBytes bytes) j = bytes.getD j.val 0 := by
  apply BitVec.eq_of_toNat_eq
  have hlt := packFields_lt bytes.reverse
  simp only [List.length_reverse] at hlt
  have hb : (busOfBytes bytes).toNat = packFields bytes.reverse := by
    have : 2 ^ (8 * bytes.length) ≤ 2 ^ 512 := Nat.pow_le_pow_right (by decide) (by omega)
    exact (BitVec.toNat_ofNat _ _).trans (Nat.mod_eq_of_lt (hlt.trans_le this))
  rw [busByte_toNat, hb]
  by_cases hj : j.val < bytes.length
  · have h := packFields_digit bytes.reverse (bytes.length - 1 - j.val) (by simp; omega)
    simp only [List.length_reverse, List.getElem_reverse] at h
    have he : bytes.length - 1 - (bytes.length - 1 - j.val) = j.val := by omega
    simp only [he] at h
    rw [h, List.getD_eq_getElem?_getD, List.getElem?_eq_getElem hj, Option.getD_some]
  · have hle : 2 ^ (8 * bytes.length) ≤ 2 ^ (8 * j.val) := Nat.pow_le_pow_right (by decide) (by omega)
    rw [Nat.div_eq_of_lt (by omega)]
    simp [List.getD_eq_getElem?_getD, List.getElem?_eq_none (by omega : bytes.length ≤ j.val)]

@[simp] theorem byteAt_rev64 (d : Bytes64) (i : Fin 64) : byteAt (rev64 d) i = d i.rev := by
  simp [rev64]

@[simp] theorem rev64Out_apply (v : Vec) (j : Fin 64) : rev64Out v j = byteAt v j.rev := rfl

end Sys2Proof.Machine
end

