-- ==== Sys2Proof/Laws/State.lean ====
section
/-! SUPPORT. Laws/State.lean: what each named update does to each field of State, true by computation, so that no later
proof unfolds a record update. -/

namespace Sys2Proof.Machine

section raiseFault

variable (s : State)

@[simp] theorem raiseFault_hash (c : FaultCause) : (raiseFault c s).hash = s.hash := rfl
@[simp] theorem raiseFault_n (c : FaultCause) : (raiseFault c s).n = s.n := rfl
@[simp] theorem raiseFault_sigma (c : FaultCause) : (raiseFault c s).sigma = s.sigma := rfl
@[simp] theorem raiseFault_block (c : FaultCause) : (raiseFault c s).block = s.block := rfl
@[simp] theorem raiseFault_blockSize (c : FaultCause) : (raiseFault c s).blockSize = s.blockSize := rfl
@[simp] theorem raiseFault_use256 (c : FaultCause) : (raiseFault c s).use256 = s.use256 := rfl
@[simp] theorem raiseFault_phase (c : FaultCause) : (raiseFault c s).phase = s.phase := rfl
@[simp] theorem raiseFault_err (c : FaultCause) : (raiseFault c s).err = true := rfl
@[simp] theorem raiseFault_errCause (c : FaultCause) : (raiseFault c s).errCause = latchCause c s := rfl
@[simp] theorem raiseFault_dataIn (c : FaultCause) : (raiseFault c s).dataIn = s.dataIn := rfl
@[simp] theorem raiseFault_inputs (c : FaultCause) : (raiseFault c s).inputs = s.inputs := rfl
@[simp] theorem raiseFault_draws (c : FaultCause) : (raiseFault c s).draws = s.draws := rfl

end raiseFault

section clearFault

variable (s : State)

@[simp] theorem clearFault_hash : (clearFault s).hash = s.hash := rfl
@[simp] theorem clearFault_n : (clearFault s).n = s.n := rfl
@[simp] theorem clearFault_sigma : (clearFault s).sigma = s.sigma := rfl
@[simp] theorem clearFault_block : (clearFault s).block = s.block := rfl
@[simp] theorem clearFault_blockSize : (clearFault s).blockSize = s.blockSize := rfl
@[simp] theorem clearFault_use256 : (clearFault s).use256 = s.use256 := rfl
@[simp] theorem clearFault_phase : (clearFault s).phase = s.phase := rfl
@[simp] theorem clearFault_err : (clearFault s).err = false := rfl
@[simp] theorem clearFault_errCause : (clearFault s).errCause = 0 := rfl
@[simp] theorem clearFault_dataIn : (clearFault s).dataIn = s.dataIn := rfl
@[simp] theorem clearFault_inputs : (clearFault s).inputs = s.inputs := rfl
@[simp] theorem clearFault_draws : (clearFault s).draws = s.draws := rfl

end clearFault

section enterPhase

variable (s : State)

@[simp] theorem enterPhase_hash (p : Phase) : (enterPhase p s).hash = s.hash := rfl
@[simp] theorem enterPhase_n (p : Phase) : (enterPhase p s).n = s.n := rfl
@[simp] theorem enterPhase_sigma (p : Phase) : (enterPhase p s).sigma = s.sigma := rfl
@[simp] theorem enterPhase_block (p : Phase) : (enterPhase p s).block = s.block := rfl
@[simp] theorem enterPhase_blockSize (p : Phase) : (enterPhase p s).blockSize = s.blockSize := rfl
@[simp] theorem enterPhase_use256 (p : Phase) : (enterPhase p s).use256 = s.use256 := rfl
@[simp] theorem enterPhase_phase (p : Phase) : (enterPhase p s).phase = p := rfl
@[simp] theorem enterPhase_err (p : Phase) : (enterPhase p s).err = s.err := rfl
@[simp] theorem enterPhase_errCause (p : Phase) : (enterPhase p s).errCause = s.errCause := rfl
@[simp] theorem enterPhase_dataIn (p : Phase) : (enterPhase p s).dataIn = s.dataIn := rfl
@[simp] theorem enterPhase_inputs (p : Phase) : (enterPhase p s).inputs = s.inputs := rfl
@[simp] theorem enterPhase_draws (p : Phase) : (enterPhase p s).draws = s.draws := rfl

end enterPhase

section createContext

variable (s : State)

@[simp] theorem createContext_hash (v256 : Bool) : (createContext v256 s).hash = ivOf v256 := rfl
@[simp] theorem createContext_n (v256 : Bool) : (createContext v256 s).n = 0 := rfl
@[simp] theorem createContext_sigma (v256 : Bool) : (createContext v256 s).sigma = 0 := rfl
@[simp] theorem createContext_block (v256 : Bool) : (createContext v256 s).block = 0 := rfl
@[simp] theorem createContext_blockSize (v256 : Bool) : (createContext v256 s).blockSize = 0 := rfl
@[simp] theorem createContext_use256 (v256 : Bool) : (createContext v256 s).use256 = v256 := rfl
@[simp] theorem createContext_phase (v256 : Bool) : (createContext v256 s).phase = s.phase := rfl
@[simp] theorem createContext_err (v256 : Bool) : (createContext v256 s).err = s.err := rfl
@[simp] theorem createContext_errCause (v256 : Bool) : (createContext v256 s).errCause = s.errCause := rfl
@[simp] theorem createContext_dataIn (v256 : Bool) : (createContext v256 s).dataIn = s.dataIn := rfl
@[simp] theorem createContext_inputs (v256 : Bool) : (createContext v256 s).inputs = s.inputs := rfl
@[simp] theorem createContext_draws (v256 : Bool) : (createContext v256 s).draws = s.draws := rfl

end createContext

section loadBlock

variable (s : State)

@[simp] theorem loadBlock_hash (v : Vec) : (loadBlock v s).hash = s.hash := rfl
@[simp] theorem loadBlock_n (v : Vec) : (loadBlock v s).n = s.n := rfl
@[simp] theorem loadBlock_sigma (v : Vec) : (loadBlock v s).sigma = s.sigma := rfl
@[simp] theorem loadBlock_block (v : Vec) : (loadBlock v s).block = v := rfl
@[simp] theorem loadBlock_blockSize (v : Vec) : (loadBlock v s).blockSize = s.blockSize := rfl
@[simp] theorem loadBlock_use256 (v : Vec) : (loadBlock v s).use256 = s.use256 := rfl
@[simp] theorem loadBlock_phase (v : Vec) : (loadBlock v s).phase = s.phase := rfl
@[simp] theorem loadBlock_err (v : Vec) : (loadBlock v s).err = s.err := rfl
@[simp] theorem loadBlock_errCause (v : Vec) : (loadBlock v s).errCause = s.errCause := rfl
@[simp] theorem loadBlock_dataIn (v : Vec) : (loadBlock v s).dataIn = s.dataIn := rfl
@[simp] theorem loadBlock_inputs (v : Vec) : (loadBlock v s).inputs = s.inputs := rfl
@[simp] theorem loadBlock_draws (v : Vec) : (loadBlock v s).draws = s.draws := rfl

end loadBlock

section absorbBlock

variable (s : State)

@[simp] theorem absorbBlock_hash (bits : BitVec 16) :
    (absorbBlock bits s).hash =
      compress s.n s.hash s.block := rfl
@[simp] theorem absorbBlock_n (bits : BitVec 16) : (absorbBlock bits s).n = add512 s.n (blockSizeOf bits) := rfl
@[simp] theorem absorbBlock_sigma (bits : BitVec 16) : (absorbBlock bits s).sigma = add512 s.sigma s.block := rfl
@[simp] theorem absorbBlock_block (bits : BitVec 16) : (absorbBlock bits s).block = s.block := rfl
@[simp] theorem absorbBlock_blockSize (bits : BitVec 16) : (absorbBlock bits s).blockSize = blockSizeOf bits := rfl
@[simp] theorem absorbBlock_use256 (bits : BitVec 16) : (absorbBlock bits s).use256 = s.use256 := rfl
@[simp] theorem absorbBlock_phase (bits : BitVec 16) : (absorbBlock bits s).phase = s.phase := rfl
@[simp] theorem absorbBlock_err (bits : BitVec 16) : (absorbBlock bits s).err = s.err := rfl
@[simp] theorem absorbBlock_errCause (bits : BitVec 16) : (absorbBlock bits s).errCause = s.errCause := rfl
@[simp] theorem absorbBlock_dataIn (bits : BitVec 16) : (absorbBlock bits s).dataIn = s.dataIn := rfl
@[simp] theorem absorbBlock_inputs (bits : BitVec 16) : (absorbBlock bits s).inputs = s.inputs := rfl
@[simp] theorem absorbBlock_draws (bits : BitVec 16) : (absorbBlock bits s).draws = s.draws := rfl

end absorbBlock

section foldHash

variable (s : State)

@[simp] theorem foldHash_hash (m : Vec) : (foldHash m s).hash = compress 0 s.hash m := rfl
@[simp] theorem foldHash_n (m : Vec) : (foldHash m s).n = s.n := rfl
@[simp] theorem foldHash_sigma (m : Vec) : (foldHash m s).sigma = s.sigma := rfl
@[simp] theorem foldHash_block (m : Vec) : (foldHash m s).block = s.block := rfl
@[simp] theorem foldHash_blockSize (m : Vec) : (foldHash m s).blockSize = s.blockSize := rfl
@[simp] theorem foldHash_use256 (m : Vec) : (foldHash m s).use256 = s.use256 := rfl
@[simp] theorem foldHash_phase (m : Vec) : (foldHash m s).phase = s.phase := rfl
@[simp] theorem foldHash_err (m : Vec) : (foldHash m s).err = s.err := rfl
@[simp] theorem foldHash_errCause (m : Vec) : (foldHash m s).errCause = s.errCause := rfl
@[simp] theorem foldHash_dataIn (m : Vec) : (foldHash m s).dataIn = s.dataIn := rfl
@[simp] theorem foldHash_inputs (m : Vec) : (foldHash m s).inputs = s.inputs := rfl
@[simp] theorem foldHash_draws (m : Vec) : (foldHash m s).draws = s.draws := rfl

end foldHash

section hardwareReset

variable (s : State)

@[simp] theorem hardwareReset_hash : (hardwareReset s).hash = Config.vectorAfterReset .hash s.draws s.hash := rfl
@[simp] theorem hardwareReset_n : (hardwareReset s).n = Config.vectorAfterReset .n s.draws s.n := rfl
@[simp] theorem hardwareReset_sigma :
    (hardwareReset s).sigma =
      Config.vectorAfterReset .sigma s.draws s.sigma := rfl
@[simp] theorem hardwareReset_block :
    (hardwareReset s).block =
      Config.vectorAfterReset .block s.draws s.block := rfl
@[simp] theorem hardwareReset_blockSize :
    (hardwareReset s).blockSize =
      Config.vectorAfterReset .blockSize s.draws s.blockSize := rfl
@[simp] theorem hardwareReset_use256 : (hardwareReset s).use256 = Config.variantAfterReset s.draws s.use256 := rfl
@[simp] theorem hardwareReset_phase : (hardwareReset s).phase = .idle := rfl
@[simp] theorem hardwareReset_err : (hardwareReset s).err = false := rfl
@[simp] theorem hardwareReset_errCause : (hardwareReset s).errCause = 0 := rfl
@[simp] theorem hardwareReset_dataIn : (hardwareReset s).dataIn = s.dataIn := rfl
@[simp] theorem hardwareReset_inputs : (hardwareReset s).inputs = s.inputs := rfl
@[simp] theorem hardwareReset_draws : (hardwareReset s).draws = s.draws + 1 := rfl

end hardwareReset

section dropInput

variable (s : State)

@[simp] theorem dropInput_hash : (dropInput s).hash = s.hash := rfl
@[simp] theorem dropInput_n : (dropInput s).n = s.n := rfl
@[simp] theorem dropInput_sigma : (dropInput s).sigma = s.sigma := rfl
@[simp] theorem dropInput_block : (dropInput s).block = s.block := rfl
@[simp] theorem dropInput_blockSize : (dropInput s).blockSize = s.blockSize := rfl
@[simp] theorem dropInput_use256 : (dropInput s).use256 = s.use256 := rfl
@[simp] theorem dropInput_phase : (dropInput s).phase = s.phase := rfl
@[simp] theorem dropInput_err : (dropInput s).err = s.err := rfl
@[simp] theorem dropInput_errCause : (dropInput s).errCause = s.errCause := rfl
@[simp] theorem dropInput_dataIn : (dropInput s).dataIn = s.dataIn := rfl
@[simp] theorem dropInput_inputs : (dropInput s).inputs = s.inputs.tail := rfl
@[simp] theorem dropInput_draws : (dropInput s).draws = s.draws := rfl

end dropInput

section sampleData

variable (s : State)

@[simp] theorem sampleData_hash (d : Vec) : (sampleData d s).hash = s.hash := rfl
@[simp] theorem sampleData_n (d : Vec) : (sampleData d s).n = s.n := rfl
@[simp] theorem sampleData_sigma (d : Vec) : (sampleData d s).sigma = s.sigma := rfl
@[simp] theorem sampleData_block (d : Vec) : (sampleData d s).block = s.block := rfl
@[simp] theorem sampleData_blockSize (d : Vec) : (sampleData d s).blockSize = s.blockSize := rfl
@[simp] theorem sampleData_use256 (d : Vec) : (sampleData d s).use256 = s.use256 := rfl
@[simp] theorem sampleData_phase (d : Vec) : (sampleData d s).phase = s.phase := rfl
@[simp] theorem sampleData_err (d : Vec) : (sampleData d s).err = s.err := rfl
@[simp] theorem sampleData_errCause (d : Vec) : (sampleData d s).errCause = s.errCause := rfl
@[simp] theorem sampleData_dataIn (d : Vec) : (sampleData d s).dataIn = d := rfl
@[simp] theorem sampleData_inputs (d : Vec) : (sampleData d s).inputs = s.inputs := rfl
@[simp] theorem sampleData_draws (d : Vec) : (sampleData d s).draws = s.draws := rfl

end sampleData

section presentFirst

variable (s : State)

@[simp] theorem presentFirst_hash (word : CommandWord) (data : Vec) :
    (presentFirst word data s).hash =
      s.hash := rfl
@[simp] theorem presentFirst_n (word : CommandWord) (data : Vec) : (presentFirst word data s).n = s.n := rfl
@[simp] theorem presentFirst_sigma (word : CommandWord) (data : Vec) :
    (presentFirst word data s).sigma =
      s.sigma := rfl
@[simp] theorem presentFirst_block (word : CommandWord) (data : Vec) :
    (presentFirst word data s).block =
      s.block := rfl
@[simp] theorem presentFirst_blockSize (word : CommandWord) (data : Vec) :
    (presentFirst word data s).blockSize =
      s.blockSize := rfl
@[simp] theorem presentFirst_use256 (word : CommandWord) (data : Vec) :
    (presentFirst word data s).use256 =
      s.use256 := rfl
@[simp] theorem presentFirst_phase (word : CommandWord) (data : Vec) :
    (presentFirst word data s).phase =
      s.phase := rfl
@[simp] theorem presentFirst_err (word : CommandWord) (data : Vec) : (presentFirst word data s).err = s.err := rfl
@[simp] theorem presentFirst_errCause (word : CommandWord) (data : Vec) :
    (presentFirst word data s).errCause =
      s.errCause := rfl
@[simp] theorem presentFirst_dataIn (word : CommandWord) (data : Vec) :
    (presentFirst word data s).dataIn =
      s.dataIn := rfl
@[simp] theorem presentFirst_inputs (word : CommandWord) (data : Vec) :
    (presentFirst word data s).inputs =
      { rst := false, cmdValid := true, cmd := word, dataIn := data } :: s.inputs := rfl
@[simp] theorem presentFirst_draws (word : CommandWord) (data : Vec) :
    (presentFirst word data s).draws =
      s.draws := rfl

end presentFirst

end Sys2Proof.Machine
end

