-- ==== Sys2Proof/Laws/Ops.lean ====
section
/-! SUPPORT. Laws/Ops.lean: for each shared operation one lemma that says once everything it can do, from the fault
entry up to one step of the machine. Proofs about a step cite `step_cases` and the `exec…_cases`. -/

namespace Sys2Proof.Machine

/-- Holding an operand changes no value (R152). -/
theorem hold_eq (v : Vec) (f : Vec → Vec) : hold v f = f v := by
  have hv : BitVec.ofNat 512 v.toNat = v := by rw [BitVec.ofNat_toNat, BitVec.setWidth_eq]
  unfold hold
  split <;> rename_i h <;> rw [h] at hv <;> exact congrArg f hv

/-- A fault either is the first, and leaves its cause, or changes nothing at all (R193, R196). -/
theorem raiseFault_cases (c : FaultCause) (s : State) :
    (s.err = false ∧ raiseFault c s = { s with err := true, errCause := c.code }) ∨
      (s.err = true ∧ raiseFault c s = s) := by
  cases h : s.err
  · exact .inl ⟨rfl, by simp [raiseFault, latchCause, h]⟩
  · refine .inr ⟨rfl, ?_⟩
    cases s
    simp_all [raiseFault, latchCause]

/-- `NOP` answers the state it was given (R163). -/
theorem execNop_cases {s t : State} (h : execNop s = .next t) : t = s := by
  cases h; rfl

/-- `INIT` answers the fresh context, with the fault cleared (R164). -/
theorem execInit_cases {v256 : Bool} {s t : State} (h : execInit v256 s = .next t) :
    t = clearFault (enterPhase .absorb (createContext v256 s)) := by
  cases h; rfl

/-- `BLOCK` absorbs in `ABSORB` and is refused in every other phase (R165, R191). -/
theorem execBlock_cases {s t : State} (h : execBlock s = .next t) :
    (s.phase = .absorb ∧ t = absorbBlock chunkBits (loadBlock (rev64 (dataBytes s)) s)) ∨
      ∃ c, admissionCause .block s.phase = some c ∧ t = raiseFault c s := by
  unfold execBlock at h
  split at h <;> rename_i hp <;> cases h
  · exact .inr ⟨_, by rw [hp]; rfl, rfl⟩
  · exact .inr ⟨_, by rw [hp]; rfl, rfl⟩
  · exact .inr ⟨_, by rw [hp]; rfl, rfl⟩
  · exact .inl ⟨hp, rfl⟩

/-- `LAST` absorbs in `ABSORB` and is refused in every other phase (R166, R191). -/
theorem execLast_cases {len : BitVec 6} {s t : State} (h : execLast len s = .next t) :
    (s.phase = .absorb ∧ t = enterPhase .padded
        (absorbBlock (tailBits len) (loadBlock (rev64 (padTail (dataBytes s) len)) s))) ∨
      ∃ c, admissionCause (.last len) s.phase = some c ∧ t = raiseFault c s := by
  unfold execLast at h
  split at h <;> rename_i hp <;> cases h
  · exact .inr ⟨_, by rw [hp]; rfl, rfl⟩
  · exact .inr ⟨_, by rw [hp]; rfl, rfl⟩
  · exact .inr ⟨_, by rw [hp]; rfl, rfl⟩
  · exact .inl ⟨hp, rfl⟩

/-- `FINAL` folds in `PADDED` and is refused in every other phase (R180, R191). -/
theorem execFinal_cases {s t : State} (h : execFinal s = .next t) :
    (s.phase = .padded ∧ t = enterPhase .done (foldHash s.sigma (foldHash s.n s))) ∨
      ∃ c, admissionCause .final s.phase = some c ∧ t = raiseFault c s := by
  unfold execFinal at h
  split at h <;> rename_i hp <;> cases h
  · exact .inr ⟨_, by rw [hp]; rfl, rfl⟩
  · exact .inr ⟨_, by rw [hp]; rfl, rfl⟩
  · exact .inr ⟨_, by rw [hp]; rfl, rfl⟩
  · exact .inl ⟨hp, rfl⟩

/-- What an accepted word can lead to (R192). -/
theorem acceptCommand_cases {word : CommandWord} {data : Vec} {s t : State}
    (h : acceptCommand word data s = .next t) :
    (∃ i, decode word = .ok i ∧ exec i (sampleData data s) = .next t) ∨
      ∃ r, decode word = .error r ∧ t = raiseFault .illegalCmd (sampleData data s) := by
  unfold acceptCommand at h
  split at h <;> rename_i hd
  · exact .inl ⟨_, hd, h⟩
  · cases h; exact .inr ⟨_, hd, rfl⟩

/-- Everything one step of the machine can do: nothing is presented; or the first cycle resets the core, presents
nothing, presents a legal command that runs, or presents an illegal word. -/
theorem step_cases {s t : State} (h : step s = .next t) :
    (s.inputs = [] ∧ t = s) ∨
    ∃ c rest, s.inputs = c :: rest ∧
      ((c.rst = true ∧ t = hardwareReset (dropInput s)) ∨
       (c.rst = false ∧ c.cmdValid = false ∧ t = dropInput s) ∨
       (c.rst = false ∧ c.cmdValid = true ∧
          ∃ i, decode c.cmd = .ok i ∧ exec i (sampleData c.dataIn (dropInput s)) = .next t) ∨
       (c.rst = false ∧ c.cmdValid = true ∧
          ∃ r, decode c.cmd = .error r ∧
            t = raiseFault .illegalCmd (sampleData c.dataIn (dropInput s)))) := by
  unfold step sequencerStep at h
  split at h <;> rename_i hs
  · cases h; exact .inl ⟨hs, rfl⟩
  · refine .inr ⟨_, _, hs, ?_⟩
    unfold runCycle at h
    split at h <;> rename_i hr
    · cases h; exact .inl ⟨hr, rfl⟩
    · have hr' := Bool.eq_false_iff.mpr hr
      split at h <;> rename_i hv
      · rcases acceptCommand_cases h with ⟨i, hd, he⟩ | ⟨r, hd, ht⟩
        · exact .inr (.inr (.inl ⟨hr', hv, i, hd, he⟩))
        · exact .inr (.inr (.inr ⟨hr', hv, r, hd, ht⟩))
      · cases h; exact .inr (.inl ⟨hr', Bool.eq_false_iff.mpr hv, rfl⟩)

end Sys2Proof.Machine
end

