-- ==== Sys2Proof/Laws/PerInstr.lean ====
section
/-! SUPPORT. Laws/PerInstr.lean: what is proved command by command about the syntax: the word of a command has the
pattern of its row of the opcode map and the bits of its operands where the row leaves them open (R83 to R85). -/

namespace Sys2Proof.Laws

/-- The bits of a command's word that its row leaves open: `v256` in bit 6 of an `INIT`, `len` in bits 5..0 of a
`LAST` (R83). -/
def operandBits (i : Instr) : CommandWord :=
  match i with
  | .nop => 0
  | .init v256 => if v256 then 0x0040 else 0
  | .block => 0
  | .last len => len.setWidth 16
  | .final => 0

/-- The word is the row's pattern under its mask and the operand's bits outside it (R83). -/
def TableMatch.Statement (i : Instr) : Prop :=
  encode i &&& i.row.mask = i.row.pattern ∧ encode i &&& ~~~ i.row.mask = operandBits i

theorem TableMatch.nop : TableMatch.Statement .nop := by
  unfold TableMatch.Statement; decide

theorem TableMatch.init (v256 : Bool) : TableMatch.Statement (.init v256) := by
  unfold TableMatch.Statement; revert v256; decide

theorem TableMatch.block : TableMatch.Statement .block := by
  unfold TableMatch.Statement; decide

theorem TableMatch.last (len : BitVec 6) : TableMatch.Statement (.last len) := by
  unfold TableMatch.Statement; revert len; decide

theorem TableMatch.final : TableMatch.Statement .final := by
  unfold TableMatch.Statement; decide

end Sys2Proof.Laws
end

