-- ==== Sys2Proof/Tests/Slice0.lean ====
section
/-! SUPPORT. Tests/Slice0.lean: the model's own tests. Expected values are those printed in `spec/` (the rule or the section
of `95_test_vectors.md` is named beside each). The last part holds, for every statement with hypotheses, a state and
operands that meet all of them. -/

namespace Sys2Proof.Tests

open Sys2Proof.Machine

/-- The machine after reset, but in the given phase. -/
def inPhase (p : Phase) : State := { State.reset with phase := p }

/-- The state to which one presented word leads is one where `check` holds. -/
def afterWord (w : CommandWord) (data : Vec) (s : State) (check : State → Bool) : Bool :=
  match step (presentFirst w data s) with
  | .next t => check t
  | .fault _ => false
  | .refused _ => false

/-- The vector `00 01 02 .. 3f` (`RAMP` of `95_test_vectors.md`). -/
def ramp : Vec := ofBytes fun i => BitVec.ofNat 8 i.val

/-- The bus on which the chunk `00 01 .. 3f` stands, `d[0]` at bits 7..0 (R57). -/
def rampBus : Vec := busOfBytes ((List.range 64).map (BitVec.ofNat 8))

/-! ### Well-formedness: one ill-formed word for each clause of R86 -/

theorem test_refuses_reserved_opcode : (Cmd16.legal { op := 5, rsv := 0, v256 := false, len := 0 }) = false := by decide
theorem test_refuses_reserved_bits : (Cmd16.legal { op := 1, rsv := 1, v256 := false, len := 0 }) = false := by decide
theorem test_refuses_variant_outside_init :
    (Cmd16.legal { op := 2, rsv := 0, v256 := true, len := 0 }) = false := by decide
theorem test_refuses_length_outside_last :
    (Cmd16.legal { op := 4, rsv := 0, v256 := false, len := 1 }) = false := by decide
theorem test_accepts_longest_tail : (Cmd16.legal { op := 3, rsv := 0, v256 := false, len := 63 }) = true := by decide
theorem test_instr_operands_in_range : ∀ len : BitVec 6, (Instr.last len).wellFormed = true := by decide

/-! ### Decoding: words written bit by bit from the patterns of R83, and the rows of section 2.14 -/

theorem test_decode_nop : decode 0b0000000000000000 = .ok .nop := by decide
theorem test_decode_init_512 : decode 0b0001000000000000 = .ok (.init false) := by decide
theorem test_decode_init_256 : decode 0b0001000001000000 = .ok (.init true) := by decide
theorem test_decode_block : decode 0b0010000000000000 = .ok .block := by decide
theorem test_decode_last_8 : decode 0b0011000000001000 = .ok (.last 8) := by decide
theorem test_decode_last_63 : decode 0b0011000000111111 = .ok (.last 63) := by decide
theorem test_decode_final : decode 0b0100000000000000 = .ok .final := by decide
theorem test_decode_nop_with_len : decode 0x0001 = .error .lengthOutsideLast := by decide
theorem test_decode_nop_with_variant : decode 0x0040 = .error .variantOutsideInit := by decide
theorem test_decode_init_with_len : decode 0x1001 = .error .lengthOutsideLast := by decide
theorem test_decode_init_bit7 : decode 0x1080 = .error .reservedBits := by decide
theorem test_decode_init_bit11 : decode 0x1840 = .error .reservedBits := by decide
theorem test_decode_last_with_variant : decode 0x3040 = .error .variantOutsideInit := by decide
theorem test_decode_opcode_5 : decode 0x5000 = .error .reservedOpcode := by decide
theorem test_decode_table_word : decodeTableWord 16 0x3008 = some (.last 8) := by decide
theorem test_decode_table_word_illegal : decodeTableWord 16 0xF000 = none := by decide

/-! ### Datapath: the examples of sections 2.2 to 2.13 -/

theorem test_pi_entries :
    romPi 0x00 = 0xFC ∧ romPi 0x7F = 0x57 ∧ romPi 0x80 = 0xDF ∧ romPi 0xA5 = 0x00 ∧ romPi 0xFF = 0xB6 := by decide
theorem test_tau_row : (List.range 8).map (fun i => (romTau (Fin.ofNat 64 (8 + i))).val) =
    [1, 9, 17, 25, 33, 41, 49, 57] := by decide
theorem test_lane_example : lane 0x0123456789ABCDEF = 0xA49049A565BDC399 := by decide +kernel
theorem test_lane_top_bit : lane 0x8000000000000000 = 0x8E20FAA72BA0B470 := by decide +kernel
theorem test_fast_table_entry : fastTable 3 0xA5 = 0xF2BC208BE914F3DA := by decide +kernel
theorem test_perm_ramp : perm ramp =
    0x00081018202830380109111921293139020a121a222a323a030b131b232b333b040c141c242c343c050d151d252d353d060e161e262e363e070f171f272f373f#512 := by
  decide +kernel
theorem test_lps_ramp : lps ramp =
    0x779271f561cd4cdf3a7222a7566373616e62ac376c30fc825cf74a93ae2ea9b5f867468c999fa006dc1d0fbf25c944fccf1916b528bd95cabba37579bf2e09a0#512 := by
  decide +kernel
theorem test_ks_zero_11 : ks 0 11 =
    0x7336605454f04c2dcfdb3b4cd6edfda46e20ca1d1b3e49f5d0207ee815e82530977764f61d0d678ded258654b5a73908b5d1a9534d8709b561fe378491246f82#512 := by
  decide +kernel
theorem test_serial_adder_ripple : add512Serial 0xFFFFFF 1 = 0x1000000 := by decide +kernel
theorem test_pad_abc : rev64 (padTail (busByte (busOfBytes [0x61, 0x62, 0x63, 0xFF])) 3) = 0x01636261 := by
  decide +kernel
theorem test_rev64_ramp : rev64 (busByte rampBus) =
    0x3f3e3d3c3b3a393837363534333231302f2e2d2c2b2a292827262524232221201f1e1d1c1b1a191817161514131211100f0e0d0c0b0a09080706050403020100#512 := by
  decide +kernel

/-! ### Commands: sections 2.15 and 3.2 to 3.6 -/

theorem test_nop_in_done_keeps_phase :
    afterWord 0x0000 0 (inPhase .done) (fun t => t.phase == .done && digestValid t) = true := by decide
theorem test_init_256_sets_iv :
    afterWord 0x1040 0 { inPhase .done with err := true, errCause := 5 } (fun t =>
      t.hash == 0x01010101010101010101010101010101010101010101010101010101010101010101010101010101010101010101010101010101010101010101010101010101#512
        && t.use256 && t.phase == .absorb && !t.err && t.errCause == 0) = true := by decide +kernel
theorem test_init_512_clears_context :
    afterWord 0x1000 7 { inPhase .padded with hash := 1, n := 2, sigma := 3, use256 := true } (fun t =>
      t.hash == 0 && t.n == 0 && t.sigma == 0 && !t.use256 && t.phase == .absorb) = true := by decide +kernel
/-- R165, the example: the first chunk of a 512-bit context (also program 3.4, after command 2). -/
theorem test_block_first_chunk :
    afterWord 0x2000 rampBus (inPhase .absorb) (fun t =>
      t.hash == 0xf44c6364053a110c92a8ca18bb8ac31c16de18f7a885ea6613ff2fed5edb92857b409e6786db709cc56048e9286ee002a5e74e5bb0987b8433eb9052dcb32a08#512
        && t.n == 512 && t.sigma == t.block && t.phase == .absorb) = true := by decide +kernel
theorem test_block_in_idle_is_refused :
    afterWord 0x2000 0 (inPhase .idle) (fun t => t.phase == .idle && t.err && t.errCause == 2) = true := by decide
/-- R166, the example: the empty tail of a fresh 512-bit context. -/
theorem test_last_empty_tail :
    afterWord 0x3000 rampBus (inPhase .absorb) (fun t =>
      t.hash == 0xae9e6751f6fc67c72a0256e7095357f80b040599a4dad6ca2096c56de2d05e399d04abddb53ce850aae44685231ede380963ba6c8c4900a40368b62b33893cda#512
        && t.block == 1 && t.blockSize == 0 && t.n == 0 && t.sigma == 1 && t.phase == .padded) = true := by
  decide +kernel
theorem test_last_in_padded_is_refused :
    afterWord 0x3000 0 (inPhase .padded) (fun t => t.phase == .padded && t.err && t.errCause == 3) = true := by decide
/-- R180, the example: `FINAL` on the empty message, 512-bit. -/
theorem test_final_empty_message :
    afterWord 0x4000 0 { inPhase .padded with
        hash := 0xae9e6751f6fc67c72a0256e7095357f80b040599a4dad6ca2096c56de2d05e399d04abddb53ce850aae44685231ede380963ba6c8c4900a40368b62b33893cda#512
        sigma := 1 } (fun t =>
      t.hash == 0x8a1a1c4cbf909f8ecb81cd1b5c713abad26a4cac2a5fda3ce86e352855712f36a7f0be98eb6cf51553b507b73a87e97946aebc29859255049f86aa09a25d948e#512
        && t.phase == .done) = true := by decide +kernel
theorem test_final_keeps_first_cause :
    afterWord 0x4000 0 { inPhase .done with err := true, errCause := 4 } (fun t =>
      t.phase == .done && t.err && t.errCause == 4) = true := by decide
theorem test_illegal_word_in_absorb :
    afterWord 0x3040 0 (inPhase .absorb) (fun t => t.phase == .absorb && t.err && t.errCause == 1) = true := by decide

/-- R181, the 256-bit example: the digest of the empty message from its final `hash`. -/
theorem test_digest_256_bus :
    State.digestBus { inPhase .done with
      use256 := true
      hash := 0xbbe19c8d2025d99f943a932a0b365a822aa36a4c479d22cc02c8973e219a533f6c0cb63589fc077568bab1da1913d85c972a1f4f4fba668aa9192d91e7a9aba2#512 } =
    some 0xbbe19c8d2025d99f943a932a0b365a822aa36a4c479d22cc02c8973e219a533f#512 := by decide +kernel
theorem test_no_digest_in_padded : State.digest (inPhase .padded) = none := by decide

/-- Host program A of section 3.7: 50 bytes issue nothing, 22 more issue one `BLOCK` and leave 8. -/
theorem test_update_buffers_the_tail :
    ((hostUpdates { tail := [] } [List.replicate 50 1, List.replicate 22 2]).1.tail.length = 8) ∧
    ((hostUpdates { tail := [] } [List.replicate 50 1, List.replicate 22 2]).2.length = 1) := by decide

/-! ### Witnesses: the hypotheses of each statement can be met -/

/-- A cycle that presents a command, one that resets, one that does nothing. -/
def commandIn (w : CommandWord) : InputCycle := { rst := false, cmdValid := true, cmd := w, dataIn := 0 }
def resetIn : InputCycle := { rst := true, cmdValid := true, cmd := 0x2000, dataIn := 0 }
def idleIn : InputCycle := { rst := false, cmdValid := false, cmd := 0x2000, dataIn := 0 }

/-- `s` with one cycle presented. -/
def presented (c : InputCycle) (s : State) : State := { s with inputs := [c] }

theorem witness_DecodeOfEncodeIsTheCommand : (Instr.last 63).wellFormed = true := by decide
theorem witness_EncodeOfDecodeIsTheWord : decode 0x303F = .ok (.last 63) := by decide
theorem witness_OpcodeRowsSelectTheirCommands_selects :
    (Instr.last 63).row ∈ opcodeTable ∧ (Instr.last 63).row.selects 0x303F := by
  unfold OpcodeRow.selects; decide
theorem witness_OpcodeRowsSelectTheirCommands_reserved :
    5 ≤ ((0x5000#16).extractLsb' 12 4).toNat ∧ 5 ≤ ((0xF000#16).extractLsb' 12 4).toNat := by decide
theorem witness_IllegalWordsAreRefused :
    decode 0x5000 = .error .reservedOpcode ∧
    (presented (commandIn 0x5000) State.reset).inputs =
      { rst := false, cmdValid := true, cmd := 0x5000, dataIn := 0 } :: [] := ⟨by decide, rfl⟩
theorem witness_TailBitLengthIsEightTimesLen : (61 : Fin 64).val < 62 ∧ (0 : Fin 64).val < 62 := by decide
theorem witness_StepRunsTheDecodedCommand :
    (presented (commandIn 0x2000) (inPhase .absorb)).inputs = commandIn 0x2000 :: [] ∧
    (commandIn 0x2000).rst = false ∧ (commandIn 0x2000).cmdValid = true ∧
    decode (commandIn 0x2000).cmd = .ok .block ∧ Instr.block.wellFormed = true :=
  ⟨rfl, rfl, rfl, by decide, rfl⟩
theorem witness_StepWithoutCommandKeepsEveryRegister :
    State.reset.inputs = [] ∧ (presented idleIn State.reset).inputs = idleIn :: [] ∧
    idleIn.rst = false ∧ idleIn.cmdValid = false := ⟨rfl, rfl, rfl, rfl⟩
theorem witness_HardwareResetEntersIdle :
    (presented resetIn (inPhase .padded)).inputs = resetIn :: [] ∧ resetIn.rst = true := ⟨rfl, rfl⟩

/-- A `PADDED` state that meets the invariant at the longest tail, and steps by `FINAL`. -/
def paddedFull : State := { inPhase .padded with block := 1 <<< 504, blockSize := 504, n := 504 }

theorem witness_EveryStepKeepsTheContextInvariant_padded :
    (presented (commandIn 0x4000) paddedFull).Inv ∧
    ∃ t, step (presented (commandIn 0x4000) paddedFull) = .next t := by
  refine ⟨?_, _, rfl⟩
  show FaultStatusOk _ ∧ PaddedContext _
  decide +kernel
theorem witness_EveryStepKeepsTheContextInvariant_absorb :
    (presented (commandIn 0x303F) (inPhase .absorb)).Inv ∧
    ∃ t, step (presented (commandIn 0x303F) (inPhase .absorb)) = .next t := by
  refine ⟨?_, _, rfl⟩
  show FaultStatusOk _ ∧ AbsorbingContext _
  decide +kernel
theorem witness_InitCreatesAFreshContext_twice : ∃ t, exec (.init true) (inPhase .done) = .next t := ⟨_, rfl⟩
theorem witness_InitCreatesAFreshContext_illegal :
    ((0x1001#16).extractLsb' 12 4 = 1 ∧ (0x1001#16).extractLsb' 0 6 ≠ 0) ∧
    ((0x1080#16).extractLsb' 12 4 = 1 ∧ (0x1080#16).extractLsb' 7 5 ≠ 0) := by decide
theorem witness_commands_by_phase :
    (inPhase .idle).phase = .idle ∧ (inPhase .absorb).phase = .absorb ∧
    (inPhase .padded).phase = .padded ∧ (inPhase .done).phase = .done := by decide
theorem witness_BlockAbsorbsTheChunk : ∃ t, exec .block (inPhase .absorb) = .next t ∧ t.phase = .absorb := ⟨_, rfl, rfl⟩
theorem witness_LastAbsorbsThePaddedTail :
    ∃ t, exec (.last 63) (inPhase .absorb) = .next t ∧ t.phase = .padded := ⟨_, rfl, rfl⟩
theorem witness_EmptyTailAbsorbsTheDelimiterAlone :
    ∃ t, exec (.last 0) (inPhase .absorb) = .next t ∧ t.phase = .padded := ⟨_, rfl, rfl⟩
theorem witness_FinalFoldsLengthThenChecksum :
    ∃ t, exec .final (inPhase .padded) = .next t ∧ t.phase = .done := ⟨_, rfl, rfl⟩
theorem witness_AdmissionFollowsTheMatrix :
    admissionCause .final (inPhase .absorb).phase = some .notPadded ∧
    admissionCause (.last 63) (inPhase .absorb).phase = none ∧ decode 0xFFFF = .error .reservedBits := by decide
/-- The codes 6 and 7, which no step writes, can stand in a state no run reaches. -/
theorem witness_AdmissionFollowsTheMatrix_reserved_code :
    ∃ t, step { State.reset with err := true, errCause := 6 } = .next t ∧ 6 ≤ t.errCause.toNat :=
  ⟨_, rfl, by decide⟩
theorem witness_FirstFaultCauseIsKept :
    ∃ t, step (presented (commandIn 0x5000) { State.reset with err := true, errCause := 2 }) = .next t ∧
      t.err = true := ⟨_, rfl, rfl⟩
theorem witness_OnlyInitOrResetClearsTheFault_init :
    ∃ t, step (presented (commandIn 0x1040) { State.reset with err := true, errCause := 2 }) = .next t ∧
      t.err = false := ⟨_, rfl, rfl⟩
theorem witness_OnlyInitOrResetClearsTheFault_reset :
    ∃ t, step (presented resetIn { State.reset with err := true, errCause := 2 }) = .next t ∧
      t.err = false := ⟨_, rfl, rfl⟩
theorem witness_ARaisedFaultChangesNothingElse :
    ∃ t, step (presented (commandIn 0x2000) State.reset) = .next t ∧ State.reset.err = false ∧ t.err = true :=
  ⟨_, rfl, rfl, rfl⟩
theorem witness_PhaseMovesOnlyAsListed :
    (∃ t, step (presented resetIn (inPhase .padded)) = .next t ∧ t.phase ≠ .padded) ∧
    (∃ t, step (presented (commandIn 0x1000) (inPhase .idle)) = .next t ∧ t.phase ≠ .idle) ∧
    (∃ t, step (presented (commandIn 0x303F) (inPhase .absorb)) = .next t ∧ t.phase ≠ .absorb) ∧
    (∃ t, step (presented (commandIn 0x4000) (inPhase .padded)) = .next t ∧ t.phase ≠ .padded) :=
  ⟨⟨_, rfl, nofun⟩, ⟨_, rfl, nofun⟩, ⟨_, rfl, nofun⟩, ⟨_, rfl, nofun⟩⟩
theorem witness_CounterAndChecksumOnlyAdd_init :
    ∃ t, step (presented (commandIn 0x1000) { State.reset with n := 1 }) = .next t ∧
      (∀ c rest, [commandIn 0x1000] = c :: rest → c.rst = false) ∧ t.n ≠ 1 :=
  ⟨_, rfl, fun _ _ h => by cases h; rfl, by decide +kernel⟩
theorem witness_CounterAndChecksumOnlyAdd_last :
    ∃ t, step (presented (commandIn 0x303F) (inPhase .absorb)) = .next t ∧
      (∀ c rest, [commandIn 0x303F] = c :: rest → c.rst = false) ∧ t.n ≠ 0 :=
  ⟨_, rfl, fun _ _ h => by cases h; rfl, by decide +kernel⟩
theorem witness_VariantIsWrittenByInitAlone :
    (∃ t, step (presented (commandIn 0x1040) State.reset) = .next t ∧
      (∀ c rest, [commandIn 0x1040] = c :: rest → c.rst = false) ∧ t.use256 ≠ State.reset.use256) ∧
    ∀ v, Instr.final ≠ .init v :=
  ⟨⟨_, rfl, fun _ _ h => by cases h; rfl, by decide⟩, nofun⟩
theorem witness_IgnoredDataBytesReachNoRegister :
    (∀ j : Fin 64, j.val < (3 : BitVec 6).toNat → busByte 0x636261 j = busByte 0xFF636261 j) ∧
    busByte 0x636261 3 ≠ busByte 0xFF636261 3 := by decide +kernel
theorem witness_InputsSinceInitDetermineEveryRegister :
    ∀ c ∈ [commandIn 0x2000, idleIn, commandIn 0x5000, commandIn 0x3000], c.rst = false := by decide
theorem witness_AFinishedContextKeepsItsDigest_leaves :
    ∃ t, step (presented (commandIn 0x1000) (inPhase .done)) = .next t ∧ t.phase ≠ .done := ⟨_, rfl, nofun⟩
theorem witness_AFinishedContextKeepsItsDigest_stays :
    ∃ t, step (presented (commandIn 0x4000) (inPhase .done)) = .next t ∧ t.phase = .done := ⟨_, rfl, rfl⟩
/-- The context of R165's example: nothing absorbed, the chunk `00 01 .. 3f` on the data port. -/
theorem witness_BlockAbsorbsTheChunk_example :
    ({ inPhase .absorb with dataIn := rampBus } : State).phase = .absorb ∧
    ({ inPhase .absorb with dataIn := rampBus } : State).hash = 0 ∧
    ({ inPhase .absorb with dataIn := rampBus } : State).n = 0 ∧
    ({ inPhase .absorb with dataIn := rampBus } : State).sigma = 0 ∧
    ({ inPhase .absorb with dataIn := rampBus } : State).dataIn =
      busOfBytes ((List.range 64).map (BitVec.ofNat 8)) := ⟨rfl, rfl, rfl, rfl, rfl⟩
theorem witness_LastAbsorbsThePaddedTail_example :
    (inPhase .absorb).phase = .absorb ∧ (inPhase .absorb).hash = 0 ∧ (inPhase .absorb).n = 0 ∧
    (inPhase .absorb).sigma = 0 := ⟨rfl, rfl, rfl, rfl⟩
/-- The context of R180's example, after `LAST 0` on the empty message. -/
def paddedEmpty : State := { inPhase .padded with
  hash := 0xae9e6751f6fc67c72a0256e7095357f80b040599a4dad6ca2096c56de2d05e399d04abddb53ce850aae44685231ede380963ba6c8c4900a40368b62b33893cda#512
  sigma := 1 }
theorem witness_FinalFoldsLengthThenChecksum_example :
    paddedEmpty.phase = .padded ∧ paddedEmpty.n = 0 ∧ paddedEmpty.sigma = 1 ∧
    paddedEmpty.hash = 0xae9e6751f6fc67c72a0256e7095357f80b040599a4dad6ca2096c56de2d05e399d04abddb53ce850aae44685231ede380963ba6c8c4900a40368b62b33893cda#512 :=
  ⟨rfl, rfl, rfl, rfl⟩
theorem witness_SubstituteIsABytewiseBijection : ∀ i, byteAt 0 i = 0 := by decide +kernel
theorem witness_PermuteTransposesTheByteMatrix : ∀ i, byteAt (ofBytes fun _ => 0xAA) i = 0xAA := by decide +kernel
theorem witness_PaddingPutsTheDelimiterAboveTheTail :
    ((2 : Fin 64).val < (3 : BitVec 6).toNat) ∧ ((3 : Fin 64).val = (3 : BitVec 6).toNat) ∧
    ((3 : BitVec 6).toNat < (4 : Fin 64).val) ∧ ((63 : Fin 64).val = (63 : BitVec 6).toNat) := by decide
theorem witness_DigestIsTheReversedTruncatedHash :
    (inPhase .done).phase = .done ∧ (inPhase .done).use256 = false ∧
    ({ inPhase .done with use256 := true } : State).use256 = true := by decide

end Sys2Proof.Tests
end

section
/-! PROOFS. `ADD512` is addition modulo 2^512 (R7, R130). -/

namespace Sys2Proof.Machine

/-- `ADD512` on the integers of R7. -/
theorem add512_toNat (a b : Vec) : (add512 a b).toNat = (a.toNat + b.toNat) % 2 ^ 512 :=
  BitVec.toNat_add a b

/-- The all-ones vector is `-1` modulo 2^512, so that adding it takes one away (R130). -/
theorem add512_allOnes (a : Vec) : add512 a (BitVec.allOnes 512) = a - 1 := by
  rw [add512, ← BitVec.neg_one_eq_allOnes, BitVec.sub_eq_add_neg]
  rfl

/-- Settles O42: the integer form and the all-ones corner have their own lemmas, the laws are those of `BitVec`, and
the other corner case and the example are closed sums. -/
theorem adderIsAdditionModulo512Bits : Obligations.AdderIsAdditionModulo512Bits := by
  unfold Obligations.AdderIsAdditionModulo512Bits
  refine ⟨add512_toNat, BitVec.add_zero, BitVec.add_comm, BitVec.add_assoc, ?_, add512_allOnes _, ?_, ?_⟩
  · calc add512 (BitVec.allOnes 512) 1
      _ = add512 1 (BitVec.allOnes 512) := BitVec.add_comm _ _
      _ = 1 - 1 := add512_allOnes 1
      _ = 0 := BitVec.sub_self 1
  · decide +kernel
  · decide +kernel

end Sys2Proof.Machine
end

section
/-! PROOFS. A core keeps nothing from before an `INIT` (R13, R37). Right after the command every field is known but
`draws`, the model's own count of resets (log entry 3). Only a reset reads `draws`: without one, a run carries it along
and no other field depends on it. -/

namespace Sys2Proof.Machine

/-! ### A cycle without reset carries `draws` along -/

/-- A command completes, leaves the input queue alone and neither reads nor writes `draws`. -/
theorem exec_draws (i : Instr) (s : State) :
    ∃ t, exec i s = .next t ∧ t.inputs = s.inputs ∧
      ∀ k, exec i { s with draws := k } = .next { t with draws := k } := by
  obtain ⟨hash, n, sigma, block, blockSize, use256, phase, err, errCause, dataIn, inputs, draws⟩ := s
  cases i with
  | nop => exact ⟨_, rfl, rfl, fun _ => rfl⟩
  | init v256 => exact ⟨_, rfl, rfl, fun _ => rfl⟩
  | block => cases phase <;> exact ⟨_, rfl, rfl, fun _ => rfl⟩
  | last len => cases phase <;> exact ⟨_, rfl, rfl, fun _ => rfl⟩
  | final => cases phase <;> exact ⟨_, rfl, rfl, fun _ => rfl⟩

/-- Acceptance of any word, legal or not, treats the queue and `draws` as a command does. -/
theorem acceptCommand_draws (word : CommandWord) (data : Vec) (s : State) :
    ∃ t, acceptCommand word data s = .next t ∧ t.inputs = s.inputs ∧
      ∀ k, acceptCommand word data { s with draws := k } = .next { t with draws := k } := by
  unfold acceptCommand
  cases decode word with
  | ok i => exact exec_draws i (sampleData data s)
  | error r => exact ⟨_, rfl, rfl, fun _ => rfl⟩

/-- So does every cycle in which `rst` is 0 (R81). -/
theorem runCycle_draws {c : InputCycle} (hc : c.rst = false) (s : State) :
    ∃ t, runCycle c s = .next t ∧ t.inputs = s.inputs ∧
      ∀ k, runCycle c { s with draws := k } = .next { t with draws := k } := by
  simp only [runCycle, hc, Bool.false_eq_true, if_false]
  split
  · exact acceptCommand_draws c.cmd c.dataIn s
  · exact ⟨s, rfl, rfl, fun _ => rfl⟩

/-- A step with an empty queue changes nothing (R207). -/
theorem step_of_inputs_nil {s : State} (h : s.inputs = []) : step s = .next s := by
  simp only [step, sequencerStep, h]

/-- A step takes the first cycle from the queue and runs it (R81). -/
theorem step_of_inputs_cons {s : State} {c : InputCycle} {rest : List InputCycle} (h : s.inputs = c :: rest) :
    step s = runCycle c (dropInput s) := by
  simp only [step, sequencerStep, h]

/-- A step without reset takes one cycle from the queue and carries `draws` along. -/
theorem step_draws (s : State) (hs : ∀ c ∈ s.inputs, c.rst = false) :
    ∃ t, step s = .next t ∧ t.inputs = s.inputs.tail ∧
      ∀ k, step { s with draws := k } = .next { t with draws := k } := by
  by_cases h : s.inputs = []
  · exact ⟨s, step_of_inputs_nil h, by rw [h, List.tail_nil], fun _ => step_of_inputs_nil h⟩
  · obtain ⟨c, rest, h⟩ := List.exists_cons_of_ne_nil h
    have hc : c.rst = false := hs c (by rw [h]; exact List.mem_cons_self)
    obtain ⟨t, ht, hq, hk⟩ := runCycle_draws hc (dropInput s)
    refine ⟨t, (step_of_inputs_cons h).trans ht, hq, fun k => ?_⟩
    exact (step_of_inputs_cons (s := { s with draws := k }) h).trans (hk k)

/-! ### A run without reset carries `draws` along -/

/-- A run goes on from the state that its first step leads to. -/
theorem run_succ_of_step {s t : State} (h : step s = .next t) (fuel : Nat) :
    core.run (fuel + 1) s = core.run fuel t := by
  have hstep : core.step s = .next t := h
  simp only [Host.Core.run, hstep]

/-- A run without reset completes, and its other fields do not depend on `draws`. -/
theorem run_draws (fuel : Nat) (s : State) (hs : ∀ c ∈ s.inputs, c.rst = false) :
    ∃ t : State, ∀ k, core.run fuel { s with draws := k } = .next { t with draws := k } := by
  induction fuel generalizing s with
  | zero => exact ⟨s, fun _ => rfl⟩
  | succ fuel ih =>
    obtain ⟨m, -, hq, hm⟩ := step_draws s hs
    have hms : ∀ c ∈ m.inputs, c.rst = false := fun c hc => hs c (List.mem_of_mem_tail (hq ▸ hc))
    obtain ⟨t, ht⟩ := ih m hms
    exact ⟨t, fun k => by rw [run_succ_of_step (hm k), ht k]⟩

/-! ### An `INIT` leaves nothing of what was before it -/

/-- The state after an `INIT v256` in a cycle that drives the bus with `data`, with `cycles` waiting behind it and no
reset taken so far. -/
def initialised (v256 : Bool) (data : Vec) (cycles : List InputCycle) : State :=
  { hash := ivOf v256, n := 0, sigma := 0, block := 0, blockSize := 0, use256 := v256
    phase := .absorb, err := false, errCause := 0
    dataIn := data, inputs := cycles, draws := 0 }

/-- The word of an `INIT` decodes to it (R84, R89). -/
theorem decode_encode_init (v256 : Bool) : decode (encode (.init v256)) = .ok (.init v256) := by
  revert v256; decide

/-- A presented `INIT` leaves a state in which `draws` alone is of the state before (R164). -/
theorem step_init (s : State) (v256 : Bool) (data : Vec) (cycles : List InputCycle) :
    step { s with inputs := commandCycle (.init v256) data :: cycles } =
      .next { initialised v256 data cycles with draws := s.draws } := by
  rw [step_of_inputs_cons rfl]
  simp only [runCycle, commandCycle, acceptCommand, decode_encode_init]
  rfl

/-- Settles O31: after the `INIT` the two cores differ in `draws` at most, and a run without reset keeps it so. -/
theorem inputsSinceInitDetermineEveryRegister : Obligations.InputsSinceInitDetermineEveryRegister := by
  unfold Obligations.InputsSinceInitDetermineEveryRegister
  intro s s' v d cycles hrst
  obtain ⟨t, ht⟩ := run_draws cycles.length (initialised v d cycles) hrst
  have hrun : ∀ s : State, core.run (cycles.length + 1) { s with inputs := commandCycle (.init v) d :: cycles } =
      .next { t with draws := s.draws } := fun s => by
    rw [run_succ_of_step (step_init s v d cycles), ht]
  exact ⟨_, _, hrun s, hrun s', ⟨rfl, rfl, rfl, rfl, rfl, rfl, rfl, rfl, rfl⟩, rfl⟩

end Sys2Proof.Machine
end

section
/-! PROOFS. What a command and a step can do, said once for all commands: admission reads the phase alone (R191, R192);
an admitted command has one effect, a refused one takes the fault (R193). Statements about a command split into these
two cases, statements about a step into those of `step_keeps_context_or_acts`. -/

namespace Sys2Proof.Machine

/-- What a command does where it is admitted (R163 to R166, R180). -/
def admittedEffect (i : Instr) (s : State) : State :=
  match i with
  | .nop => s
  | .init v256 => clearFault (enterPhase .absorb (createContext v256 s))
  | .block => absorbBlock chunkBits (loadBlock (rev64 (dataBytes s)) s)
  | .last len =>
    enterPhase .padded (absorbBlock (tailBits len) (loadBlock (rev64 (padTail (dataBytes s) len)) s))
  | .final => enterPhase .done (foldHash s.sigma (foldHash s.n s))

theorem admissionCause_block_eq_none {p : Phase} : admissionCause .block p = none ↔ p = .absorb := by
  cases p <;> decide

theorem admissionCause_last_eq_none {len : BitVec 6} {p : Phase} :
    admissionCause (.last len) p = none ↔ p = .absorb := by
  cases p <;> simp [admissionCause]

theorem admissionCause_final_eq_none {p : Phase} : admissionCause .final p = none ↔ p = .padded := by
  cases p <;> decide

/-- The meaning of every command: its effect where the matrix admits it, else the fault the matrix names (R191 to
R193). -/
theorem exec_eq (i : Instr) (s : State) :
    exec i s = .next ((admissionCause i s.phase).elim (admittedEffect i s) fun c => raiseFault c s) := by
  obtain ⟨hash, n, sigma, block, blockSize, use256, phase, err, errCause, dataIn, inputs, draws⟩ := s
  cases i with
  | nop => rfl
  | init v256 => rfl
  | block => cases phase <;> rfl
  | last len => cases phase <;> rfl
  | final => cases phase <;> rfl

theorem exec_of_admitted {i : Instr} {s : State} (h : admissionCause i s.phase = none) :
    exec i s = .next (admittedEffect i s) := by
  rw [exec_eq, h, Option.elim_none]

theorem exec_of_refused {i : Instr} {s : State} {c : FaultCause} (h : admissionCause i s.phase = some c) :
    exec i s = .next (raiseFault c s) := by
  rw [exec_eq, h, Option.elim_some]

/-- Everything a command can do (R191 to R193). -/
theorem exec_cases {i : Instr} {s t : State} (h : exec i s = .next t) :
    (admissionCause i s.phase = none ∧ t = admittedEffect i s) ∨
      ∃ c, admissionCause i s.phase = some c ∧ t = raiseFault c s := by
  cases hc : admissionCause i s.phase with
  | none => rw [exec_of_admitted hc] at h; cases h; exact .inl ⟨rfl, rfl⟩
  | some c => rw [exec_of_refused hc] at h; cases h; exact .inr ⟨c, rfl, rfl⟩

/-- Two states in the same phase both run a command or refuse it with the same cause: no other register has a
part in the admission (R28, R192). -/
theorem exec_of_phase_eq (i : Instr) {s s' : State} (hp : s'.phase = s.phase) :
    (exec i s = .next (admittedEffect i s) ∧ exec i s' = .next (admittedEffect i s')) ∨
      ∃ c, exec i s = .next (raiseFault c s) ∧ exec i s' = .next (raiseFault c s') := by
  cases hc : admissionCause i s.phase with
  | none => exact .inl ⟨exec_of_admitted hc, exec_of_admitted (hp ▸ hc)⟩
  | some c => exact .inr ⟨c, exec_of_refused hc, exec_of_refused (hp ▸ hc)⟩

/-- A command that executes leads to the phase R27 lists for it. -/
theorem admittedEffect_phase (i : Instr) (s : State) : (admittedEffect i s).phase = phaseAfter i s.phase := by
  cases i <;> rfl

theorem runCycle_reset {c : InputCycle} (hrst : c.rst = true) (s : State) :
    runCycle c s = .next (hardwareReset s) := by
  rw [runCycle, if_pos hrst]

theorem runCycle_accept {c : InputCycle} (hrst : c.rst = false) (hvalid : c.cmdValid = true) (s : State) :
    runCycle c s = acceptCommand c.cmd c.dataIn s := by
  rw [runCycle, if_neg (Bool.eq_false_iff.mp hrst), if_pos hvalid]

theorem runCycle_idle {c : InputCycle} (hrst : c.rst = false) (hvalid : c.cmdValid = false) (s : State) :
    runCycle c s = .next s := by
  rw [runCycle, if_neg (Bool.eq_false_iff.mp hrst), if_neg (Bool.eq_false_iff.mp hvalid)]

/-- A step either writes no register but the fault status, or it is a reset cycle, or it runs an admitted command. -/
theorem step_keeps_context_or_acts {s t : State} (h : step s = .next t) :
    SameCore { t with err := s.err, errCause := s.errCause } s ∨
    ∃ c rest, s.inputs = c :: rest ∧
      ((c.rst = true ∧ t = hardwareReset (dropInput s)) ∨
       (c.rst = false ∧ c.cmdValid = true ∧ ∃ i, decode c.cmd = .ok i ∧ admissionCause i s.phase = none ∧
         t = admittedEffect i (sampleData c.dataIn (dropInput s)))) := by
  rcases step_cases h with ⟨-, rfl⟩ | ⟨c, rest, hin,
    hreset | ⟨-, -, rfl⟩ | ⟨hrst, hvalid, i, hdec, hexec⟩ | ⟨-, -, r, -, rfl⟩⟩
  · exact .inl ⟨rfl, rfl, rfl, rfl, rfl, rfl, rfl, rfl, rfl⟩
  · exact .inr ⟨c, rest, hin, .inl hreset⟩
  · exact .inl ⟨rfl, rfl, rfl, rfl, rfl, rfl, rfl, rfl, rfl⟩
  · rcases exec_cases hexec with ⟨hadm, rfl⟩ | ⟨cause, -, rfl⟩
    · exact .inr ⟨c, rest, hin, .inr ⟨hrst, hvalid, i, hdec, hadm, rfl⟩⟩
    · exact .inl ⟨rfl, rfl, rfl, rfl, rfl, rfl, rfl, rfl, rfl⟩
  · exact .inl ⟨rfl, rfl, rfl, rfl, rfl, rfl, rfl, rfl, rfl⟩

end Sys2Proof.Machine
end

section
/-! PROOFS. The invariant of a core (R25, R29, R35, R161, R168): the lengths that `ABSORB` adds, the delimiter
that `PAD` puts above the tail, and what each operation does to `State.Inv`. -/

namespace Sys2Proof.Machine

/-! ### Lengths -/

@[simp] theorem blockSizeOf_toNat (bits : BitVec 16) : (blockSizeOf bits).toNat = bits.toNat :=
  BitVec.toNat_setWidth_of_le (by decide)

/-- The bit length of a tail of `len` bytes (R85). -/
@[simp] theorem tailBits_toNat (len : BitVec 6) : (tailBits len).toNat = 8 * len.toNat := by
  revert len; decide

@[simp] theorem chunkBits_toNat : chunkBits.toNat = 512 := rfl

theorem blockSizeOf_chunkBits : blockSizeOf chunkBits = 512 := by decide +kernel

/-- `ADD512` wraps at a multiple of 512, so lengths modulo 512 add up (R130). -/
theorem add512_toNat_mod_512 (a b : Vec) : (add512 a b).toNat % 512 = (a.toNat + b.toNat) % 512 := by
  have hdvd : 512 ∣ 2 ^ 512 := pow_dvd_pow 2 (by decide : 9 ≤ 512)
  rw [add512_toNat, Nat.mod_mod_of_dvd _ hdvd]

/-! ### The padded tail -/

/-- Shifting a vector right by whole bytes moves its bytes up in the numbering of R7 and fills with zeros. -/
theorem byteAt_ushiftRight (v : Vec) (m : Nat) (i : Fin 64) :
    byteAt (v >>> (8 * m)) i = if m ≤ i.val then byteAt v ⟨i.val - m, by omega⟩ else 0 := by
  apply BitVec.eq_of_getLsbD_eq
  intro b hb
  rw [getLsbD_byteAt, BitVec.getLsbD_ushiftRight]
  split
  · rw [getLsbD_byteAt]
    congr 2
    simp only
    omega
  · rw [BitVec.getLsbD_of_ge v _ (by omega), Bool.and_false]
    exact (BitVec.getLsbD_zero).symm

theorem byteAt_one (i : Fin 64) : byteAt 1 i = if i.val = 63 then 1 else 0 := by
  revert i; decide +kernel

/-- Above the tail bytes a padded tail is the delimiter alone (R161). -/
theorem padTail_ushiftRight (d : Bytes64) (len : BitVec 6) : rev64 (padTail d len) >>> (8 * len.toNat) = 1 := by
  apply eq_of_byteAt_eq
  intro i
  have hlen : len.toNat < 64 := len.isLt
  rw [byteAt_ushiftRight, byteAt_one]
  by_cases hi : len.toNat ≤ i.val
  · rw [if_pos hi, byteAt_rev64, padTail]
    have hge : ¬ 63 - (i.val - len.toNat) < len.toNat := by omega
    have heq : 63 - (i.val - len.toNat) = len.toNat ↔ i.val = 63 := by omega
    simp [Fin.val_rev, hge, heq]
  · rw [if_neg hi, if_neg (by omega)]

theorem padTail_toNat_div (d : Bytes64) (len : BitVec 6) :
    (rev64 (padTail d len)).toNat / 2 ^ (8 * len.toNat) = 1 := by
  rw [← Nat.shiftRight_eq_div_pow, ← BitVec.toNat_ushiftRight, padTail_ushiftRight]
  exact BitVec.toNat_one (by decide)

/-! ### The invariant by phase -/

theorem inv_idle_iff {s : State} (hp : s.phase = .idle) : s.Inv ↔ FaultStatusOk s := by
  simp only [State.Inv, hp, and_true]

theorem inv_absorb_iff {s : State} (hp : s.phase = .absorb) : s.Inv ↔ FaultStatusOk s ∧ AbsorbingContext s := by
  simp only [State.Inv, hp]

theorem inv_padded_iff {s : State} (hp : s.phase = .padded) : s.Inv ↔ FaultStatusOk s ∧ PaddedContext s := by
  simp only [State.Inv, hp]

theorem inv_done_iff {s : State} (hp : s.phase = .done) : s.Inv ↔ FaultStatusOk s ∧ PaddedContext s := by
  simp only [State.Inv, hp]

/-- A context in `ABSORB` has absorbed whole chunks only (R168). -/
theorem AbsorbingContext.n_mod_512 {s : State} (h : AbsorbingContext s) : s.n.toNat % 512 = 0 := by
  obtain ⟨-, hn, -⟩ | ⟨-, hn⟩ := h
  · simp [hn]
  · exact hn

/-! ### Each operation keeps the invariant -/

/-- No cause is the code 0 of `NONE` or a reserved one (R191). -/
theorem FaultCause.code_range (c : FaultCause) : c.code ≠ 0 ∧ c.code.toNat ≤ 5 := by
  cases c <;> decide

theorem raiseFault_faultStatusOk {s : State} (c : FaultCause) (h : FaultStatusOk s) :
    FaultStatusOk (raiseFault c s) := by
  rcases raiseFault_cases c s with ⟨-, hs⟩ | ⟨-, hs⟩ <;> rw [hs]
  · obtain ⟨hne, hle⟩ := c.code_range
    exact ⟨iff_of_false Bool.noConfusion hne, hle⟩
  · exact h

theorem raiseFault_inv {s : State} (c : FaultCause) (h : s.Inv) : (raiseFault c s).Inv :=
  ⟨raiseFault_faultStatusOk c h.1, h.2⟩

theorem hardwareReset_inv (s : State) : (hardwareReset s).Inv :=
  (inv_idle_iff rfl).mpr ⟨iff_of_true rfl rfl, Nat.zero_le 5⟩

theorem initEffect_inv (v256 : Bool) (s : State) : (admittedEffect (.init v256) s).Inv :=
  (inv_absorb_iff rfl).mpr ⟨⟨iff_of_true rfl rfl, Nat.zero_le 5⟩, .inl ⟨rfl, rfl, rfl, rfl, rfl⟩⟩

/-- A full chunk adds 512 to a multiple of 512 (R165). -/
theorem blockEffect_inv {s : State} (hp : s.phase = .absorb) (h : s.Inv) : (admittedEffect .block s).Inv := by
  obtain ⟨hfault, hctx⟩ := (inv_absorb_iff hp).mp h
  have hn := hctx.n_mod_512
  refine (inv_absorb_iff (s := admittedEffect .block s) hp).mpr ⟨hfault, .inr ⟨?_, ?_⟩⟩
  · rw [admittedEffect, absorbBlock_blockSize, blockSizeOf_chunkBits]
  · simp only [admittedEffect, absorbBlock_n, loadBlock_n, add512_toNat_mod_512, blockSizeOf_toNat, chunkBits_toNat]
    omega

/-- A tail adds its `8 * len < 512` bits to a multiple of 512, under the delimiter (R166). -/
theorem lastEffect_inv {s : State} (len : BitVec 6) (hp : s.phase = .absorb) (h : s.Inv) :
    (admittedEffect (.last len) s).Inv := by
  obtain ⟨hfault, hctx⟩ := (inv_absorb_iff hp).mp h
  have hn := hctx.n_mod_512
  have hlen : len.toNat < 64 := len.isLt
  refine (inv_padded_iff rfl).mpr ⟨hfault, ?_⟩
  simp only [PaddedContext, admittedEffect, enterPhase_blockSize, enterPhase_n, enterPhase_block,
    absorbBlock_blockSize, absorbBlock_n, absorbBlock_block, loadBlock_n, loadBlock_block, add512_toNat_mod_512,
    blockSizeOf_toNat, tailBits_toNat, padTail_toNat_div, and_true]
  omega

/-- `FINAL` writes the hash and the phase only (R180). -/
theorem finalEffect_inv {s : State} (hp : s.phase = .padded) (h : s.Inv) : (admittedEffect .final s).Inv :=
  (inv_done_iff rfl).mpr ((inv_padded_iff hp).mp h)

theorem admittedEffect_inv {i : Instr} {s : State} (hadm : admissionCause i s.phase = none) (h : s.Inv) :
    (admittedEffect i s).Inv := by
  cases i with
  | nop => exact h
  | init v256 => exact initEffect_inv v256 s
  | block => exact blockEffect_inv (admissionCause_block_eq_none.mp hadm) h
  | last len => exact lastEffect_inv len (admissionCause_last_eq_none.mp hadm) h
  | final => exact finalEffect_inv (admissionCause_final_eq_none.mp hadm) h

theorem exec_keeps_inv {i : Instr} {s t : State} (h : s.Inv) (hexec : exec i s = .next t) : t.Inv := by
  rcases exec_cases hexec with ⟨hadm, rfl⟩ | ⟨c, -, rfl⟩
  · exact admittedEffect_inv hadm h
  · exact raiseFault_inv c h

/-- The port and the queue have no part in the invariant. -/
theorem sampleData_dropInput_inv {s : State} (d : Vec) (h : s.Inv) : (sampleData d (dropInput s)).Inv := h

/-- Settles O11: one case for each thing a step can do. -/
theorem everyStepKeepsTheContextInvariant : Obligations.EveryStepKeepsTheContextInvariant := by
  unfold Obligations.EveryStepKeepsTheContextInvariant
  intro s t hinv hstep
  rcases step_cases hstep with
    ⟨-, rfl⟩ | ⟨c, rest, -, ⟨-, rfl⟩ | ⟨-, -, rfl⟩ | ⟨-, -, i, -, hexec⟩ | ⟨-, -, r, -, rfl⟩⟩
  · exact hinv
  · exact hardwareReset_inv (dropInput s)
  · exact hinv
  · exact exec_keeps_inv (sampleData_dropInput_inv c.dataIn hinv) hexec
  · exact raiseFault_inv .illegalCmd (sampleData_dropInput_inv c.dataIn hinv)

/-- Settles O12: in `IDLE` the invariant speaks of the fault status alone. -/
theorem resetStateMeetsTheContextInvariant : Obligations.ResetStateMeetsTheContextInvariant := by
  unfold Obligations.ResetStateMeetsTheContextInvariant
  exact (inv_idle_iff rfl).mpr ⟨iff_of_true rfl rfl, Nat.zero_le 5⟩

end Sys2Proof.Machine
end

section
/-! PROOFS. Who may write the phase, the counter, the checksum and the variant (R22, R23, R26, R27): each statement
reads off the cases of `step_keeps_context_or_acts`. -/

namespace Sys2Proof.Machine

/-- The three ways an admitted command changes the phase (R27). -/
theorem phaseAfter_ne_cases {i : Instr} {p : Phase} (hadm : admissionCause i p = none) (hne : phaseAfter i p ≠ p) :
    (∃ v, i = .init v ∧ phaseAfter i p = .absorb) ∨
    (∃ len, i = .last len ∧ p = .absorb ∧ phaseAfter i p = .padded) ∨
    (i = .final ∧ p = .padded ∧ phaseAfter i p = .done) := by
  cases i with
  | nop => exact absurd rfl hne
  | init v256 => exact .inl ⟨v256, rfl, rfl⟩
  | block => exact absurd rfl hne
  | last len => exact .inr (.inl ⟨len, rfl, admissionCause_last_eq_none.mp hadm, rfl⟩)
  | final => exact .inr (.inr ⟨rfl, admissionCause_final_eq_none.mp hadm, rfl⟩)

/-- A step that changes the phase is a reset or one of the three commands that move it (R27). -/
theorem step_phase_ne_cases {s t : State} (hstep : step s = .next t) (hne : t.phase ≠ s.phase) :
    ∃ c rest, s.inputs = c :: rest ∧
      ((c.rst = true ∧ t.phase = .idle) ∨
       (c.rst = false ∧ c.cmdValid = true ∧
         ((∃ v, decode c.cmd = .ok (.init v) ∧ t.phase = .absorb) ∨
          (∃ len, decode c.cmd = .ok (.last len) ∧ s.phase = .absorb ∧ t.phase = .padded) ∨
          (decode c.cmd = .ok .final ∧ s.phase = .padded ∧ t.phase = .done)))) := by
  rcases step_keeps_context_or_acts hstep with
    ⟨-, -, -, -, -, -, hphase, -, -⟩ | ⟨c, rest, hin, ⟨hrst, rfl⟩ | ⟨hrst, hvalid, i, hdec, hadm, rfl⟩⟩
  · exact absurd hphase hne
  · exact ⟨c, rest, hin, .inl ⟨hrst, rfl⟩⟩
  · refine ⟨c, rest, hin, .inr ⟨hrst, hvalid, ?_⟩⟩
    rw [admittedEffect_phase] at hne ⊢
    rcases phaseAfter_ne_cases hadm hne with ⟨v, rfl, ht⟩ | ⟨len, rfl, hs, ht⟩ | ⟨rfl, hs, ht⟩
    · exact .inl ⟨v, hdec, ht⟩
    · exact .inr (.inl ⟨len, hdec, hs, ht⟩)
    · exact .inr (.inr ⟨hdec, hs, ht⟩)

/-- Settles O25: an admitted command leads to `phaseAfter`, and no other step but a reset changes the phase. -/
theorem phaseMovesOnlyAsListed : Obligations.PhaseMovesOnlyAsListed := by
  unfold Obligations.PhaseMovesOnlyAsListed
  refine ⟨⟨rfl, rfl, rfl, rfl⟩, rfl, ?_, ?_, ?_, ?_, fun s t => step_phase_ne_cases⟩
  · exact fun v s => ⟨_, exec_of_admitted (i := .init v) rfl, rfl⟩
  · exact fun s hs => ⟨_, exec_of_admitted (admissionCause_block_eq_none.mpr hs), hs⟩
  · exact fun len s hs => ⟨_, exec_of_admitted (admissionCause_last_eq_none.mpr hs), rfl⟩
  · exact fun s hs => ⟨_, exec_of_admitted (admissionCause_final_eq_none.mpr hs), rfl⟩

/-- What an admitted command does to the counter and the checksum (R164 to R166). -/
theorem admittedEffect_n_sigma {i : Instr} {s : State} (hadm : admissionCause i s.phase = none) :
    ((admittedEffect i s).n = s.n ∧ (admittedEffect i s).sigma = s.sigma) ∨
    ((∃ v, i = .init v) ∧ (admittedEffect i s).n = 0 ∧ (admittedEffect i s).sigma = 0) ∨
    (s.phase = .absorb ∧ (admittedEffect i s).n = add512 s.n (admittedEffect i s).blockSize ∧
      (admittedEffect i s).sigma = add512 s.sigma (admittedEffect i s).block) := by
  cases i with
  | nop => exact .inl ⟨rfl, rfl⟩
  | init v256 => exact .inr (.inl ⟨⟨v256, rfl⟩, rfl, rfl⟩)
  | block => exact .inr (.inr ⟨admissionCause_block_eq_none.mp hadm, rfl, rfl⟩)
  | last len => exact .inr (.inr ⟨admissionCause_last_eq_none.mp hadm, rfl, rfl⟩)
  | final => exact .inl ⟨rfl, rfl⟩

/-- Settles O26: of the steps outside reset, only an admitted command writes the two registers. -/
theorem counterAndChecksumOnlyAdd : Obligations.CounterAndChecksumOnlyAdd := by
  unfold Obligations.CounterAndChecksumOnlyAdd
  intro s t hstep hnorst hne
  rcases step_keeps_context_or_acts hstep with
    ⟨-, hn, hsigma, -, -, -, -, -, -⟩ | ⟨c, rest, hin, ⟨hrst, -⟩ | ⟨-, hvalid, i, hdec, hadm, rfl⟩⟩
  · exact hne.elim (absurd hn) (absurd hsigma)
  · exact absurd hrst (by rw [hnorst c rest hin]; decide)
  · rcases admittedEffect_n_sigma (s := sampleData c.dataIn (dropInput s)) hadm with
      ⟨hn, hsigma⟩ | ⟨⟨v, rfl⟩, hn, hsigma⟩ | hgrown
    · exact hne.elim (absurd hn) (absurd hsigma)
    · exact .inl ⟨hn, hsigma, c, rest, v, hin, hvalid, hdec⟩
    · exact .inr hgrown

/-- Of the commands only `INIT` writes the variant (R26). -/
theorem admittedEffect_use256 (i : Instr) (s : State) :
    (admittedEffect i s).use256 = s.use256 ∨ i = .init (admittedEffect i s).use256 := by
  cases i with
  | init v256 => exact .inr rfl
  | nop | block | last len | final => exact .inl rfl

/-- A step outside reset that changes the variant runs the `INIT` of the new one (R26). -/
theorem step_use256_ne {s t : State} (hstep : step s = .next t)
    (hnorst : ∀ c rest, s.inputs = c :: rest → c.rst = false) (hne : t.use256 ≠ s.use256) :
    ∃ c rest, s.inputs = c :: rest ∧ c.cmdValid = true ∧ decode c.cmd = .ok (.init t.use256) := by
  rcases step_keeps_context_or_acts hstep with
    ⟨-, -, -, -, -, huse, -, -, -⟩ | ⟨c, rest, hin, ⟨hrst, -⟩ | ⟨-, hvalid, i, hdec, -, rfl⟩⟩
  · exact absurd huse hne
  · exact absurd hrst (by rw [hnorst c rest hin]; decide)
  · rcases admittedEffect_use256 i (sampleData c.dataIn (dropInput s)) with huse | hi
    · exact absurd huse hne
    · exact ⟨c, rest, hin, hvalid, hdec.trans (congrArg _ hi)⟩

/-- No command but `INIT` reads or writes the variant. -/
theorem exec_use256 {i : Instr} (hi : ∀ v, i ≠ .init v) (s : State) (b : Bool) :
    ∃ t, exec i s = .next t ∧ exec i { s with use256 := b } = .next { t with use256 := b } := by
  rcases exec_of_phase_eq i (s := s) (s' := { s with use256 := b }) rfl with ⟨h, h'⟩ | ⟨c, h, h'⟩
  · refine ⟨_, h, h'.trans ?_⟩
    cases i with
    | init v256 => exact absurd rfl (hi v256)
    | nop | block | last len | final => rfl
  · exact ⟨_, h, h'⟩

/-- Settles O27: the first part by the steps, the second by the commands. -/
theorem variantIsWrittenByInitAlone : Obligations.VariantIsWrittenByInitAlone := by
  unfold Obligations.VariantIsWrittenByInitAlone
  exact ⟨fun s t => step_use256_ne, fun i s b hi => exec_use256 hi s b⟩

end Sys2Proof.Machine
end

section
/-! PROOFS. What no command reads: the fault status (R28), the block and the block size an earlier command left (R24,
R25), the port data of an earlier cycle (R20). The two states compared are in one phase, so the command
runs in both or is refused in both (`exec_of_phase_eq`). -/

namespace Sys2Proof.Machine

/-- Settles O21: admitted or refused, a command computes the other registers without `err` and `err_cause`. -/
theorem faultFlagGatesNothing : Obligations.FaultFlagGatesNothing := by
  unfold Obligations.FaultFlagGatesNothing
  intro i s e c
  rcases exec_of_phase_eq i (s := s) (s' := { s with err := e, errCause := c }) rfl with
    ⟨h, h'⟩ | ⟨cause, h, h'⟩
  · exact ⟨_, _, h, h', by cases i <;> rfl⟩
  · exact ⟨_, _, h, h', rfl⟩

/-- Where a command is admitted, it writes the block before it reads it, or does not read it (R162). -/
theorem admittedEffect_sameButBlock (i : Instr) (s : State) (b z : Vec) :
    SameButBlock (admittedEffect i s) (admittedEffect i { s with block := b, blockSize := z }) := by
  cases i <;> exact ⟨rfl, rfl, rfl, rfl, rfl, rfl, rfl⟩

/-- Settles O28: a refused command touches neither register, an admitted one as `admittedEffect_sameButBlock` says. -/
theorem currentBlockIsNeverReadBack : Obligations.CurrentBlockIsNeverReadBack := by
  unfold Obligations.CurrentBlockIsNeverReadBack
  intro i s b z
  rcases exec_of_phase_eq i (s := s) (s' := { s with block := b, blockSize := z }) rfl with
    ⟨h, h'⟩ | ⟨cause, h, h'⟩
  · exact ⟨_, _, h, h', admittedEffect_sameButBlock i s b z⟩
  · exact ⟨_, _, h, h', rfl, rfl, rfl, rfl, rfl, rfl, rfl⟩

/-- Acceptance samples the port anew before anything reads it (R81). -/
theorem acceptCommand_dataIn (word : CommandWord) (data : Vec) (s : State) (d : Vec) :
    acceptCommand word data { s with dataIn := d } = acceptCommand word data s := rfl

/-- A cycle that accepts a command forgets the old port value; any other only hands that value on (R81). -/
theorem runCycle_dataIn (c : InputCycle) (s : State) (d : Vec) :
    ∃ t t', runCycle c s = .next t ∧ runCycle c { s with dataIn := d } = .next t' ∧ SameCore t t' := by
  cases hrst : c.rst with
  | true => exact ⟨_, _, runCycle_reset hrst s, runCycle_reset hrst _, rfl, rfl, rfl, rfl, rfl, rfl, rfl, rfl, rfl⟩
  | false =>
    cases hvalid : c.cmdValid with
    | false =>
      exact ⟨_, _, runCycle_idle hrst hvalid s, runCycle_idle hrst hvalid _,
        rfl, rfl, rfl, rfl, rfl, rfl, rfl, rfl, rfl⟩
    | true =>
      obtain ⟨t, ht, -⟩ := acceptCommand_draws c.cmd c.dataIn s
      refine ⟨t, t, (runCycle_accept hrst hvalid s).trans ht, ?_, rfl, rfl, rfl, rfl, rfl, rfl, rfl, rfl, rfl⟩
      rw [runCycle_accept hrst hvalid, acceptCommand_dataIn, ht]

/-- Settles O30: without a cycle the step changes nothing, and with one `runCycle_dataIn` applies. -/
theorem earlierPortDataIsNeverRead : Obligations.EarlierPortDataIsNeverRead := by
  unfold Obligations.EarlierPortDataIsNeverRead
  intro s d
  by_cases hin : s.inputs = []
  · exact ⟨_, _, step_of_inputs_nil hin, step_of_inputs_nil hin, rfl, rfl, rfl, rfl, rfl, rfl, rfl, rfl, rfl⟩
  · obtain ⟨c, rest, hin⟩ := List.exists_cons_of_ne_nil hin
    rw [step_of_inputs_cons hin, step_of_inputs_cons (s := { s with dataIn := d }) hin]
    exact runCycle_dataIn c (dropInput s) d

end Sys2Proof.Machine
end

section
/-! PROOFS. What an `INIT`, full chunks and one tail add up to in `n` and `sigma` (R35, R168). -/

namespace Sys2Proof.Machine

/-- The word of every command decodes to it (R83 to R85, R89). -/
theorem decode_encode (i : Instr) : decode (encode i) = .ok i := by
  cases i with
  | nop => decide
  | init v256 => exact decode_encode_init v256
  | block => decide
  | last len => revert len; decide
  | final => decide

/-- A presented command is sampled with its data and runs (R64, R81). -/
theorem step_of_command {s : State} {i : Instr} {data : Vec} {rest : List InputCycle}
    (hin : s.inputs = commandCycle i data :: rest) : step s = exec i (sampleData data (dropInput s)) := by
  rw [step_of_inputs_cons hin, runCycle_accept rfl rfl, commandCycle, acceptCommand, decode_encode]

theorem step_of_admitted_command {s : State} {i : Instr} {data : Vec} {rest : List InputCycle}
    (hin : s.inputs = commandCycle i data :: rest) (hadm : admissionCause i s.phase = none) :
    step s = .next (admittedEffect i (sampleData data (dropInput s))) :=
  (step_of_command hin).trans (exec_of_admitted hadm)

/-- The block of a full chunk is the integer on the bus: byte order and bus placement undo each other (R57, R160). -/
@[simp] theorem rev64_busByte (bus : Vec) : rev64 (busByte bus) = bus :=
  eq_of_byteAt_eq fun i => by rw [byteAt_rev64, busByte_eq_byteAt_rev, Fin.rev_rev]

/-- From any `ABSORB` context the chunks and the tail add their lengths to `n` and their blocks to `sigma`, modulo
2^512 (R162, R168). -/
theorem run_chunks_and_tail (chunks : List Vec) (len : BitVec 6) (d : Vec) (s : State)
    (hphase : s.phase = .absorb) (herr : s.err = false)
    (hin : s.inputs = chunks.map (commandCycle .block) ++ [commandCycle (.last len) d]) :
    ∃ t : State, core.run (chunks.length + 1) s = .next t ∧ t.phase = .padded ∧ t.err = false ∧
      t.n.toNat = (s.n.toNat + (512 * chunks.length + 8 * len.toNat)) % 2 ^ 512 ∧
      t.sigma.toNat =
        (s.sigma.toNat + ((chunks.map BitVec.toNat).sum + (rev64 (padTail (busByte d) len)).toNat)) % 2 ^ 512 := by
  induction chunks generalizing s with
  | nil =>
    have hstep := step_of_admitted_command hin (admissionCause_last_eq_none.mpr hphase)
    refine ⟨_, run_succ_of_step hstep 0, rfl, herr, ?_, ?_⟩
    · simp [admittedEffect, add512_toNat]
    · simp [admittedEffect, add512_toNat, dataBytes]
  | cons chunk chunks ih =>
    have hstep := step_of_admitted_command hin (admissionCause_block_eq_none.mpr hphase)
    obtain ⟨t, hrun, htp, hte, hn, hsigma⟩ :=
      ih (admittedEffect .block (sampleData chunk (dropInput s))) hphase herr (congrArg List.tail hin)
    refine ⟨t, (run_succ_of_step hstep _).trans hrun, htp, hte, ?_, ?_⟩
    · rw [hn]
      simp only [admittedEffect, absorbBlock_n, loadBlock_n, sampleData_n, dropInput_n, add512_toNat,
        blockSizeOf_toNat, chunkBits_toNat, Nat.mod_add_mod, List.length_cons]
      congr 1
      ring
    · rw [hsigma]
      simp only [admittedEffect, absorbBlock_sigma, loadBlock_sigma, loadBlock_block, sampleData_sigma,
        dropInput_sigma, dataBytes, sampleData_dataIn, rev64_busByte, add512_toNat, Nat.mod_add_mod,
        List.map_cons, List.sum_cons, Nat.add_assoc]

/-- Settles O51: the `INIT` leaves an `ABSORB` context with `n` and `sigma` zero. -/
theorem lengthAndChecksumAccounting : Obligations.LengthAndChecksumAccounting := by
  unfold Obligations.LengthAndChecksumAccounting
  intro s v chunks len d
  obtain ⟨t, hrun, hphase, herr, hn, hsigma⟩ := run_chunks_and_tail chunks len d
    { initialised v 0 (chunks.map (commandCycle .block) ++ [commandCycle (.last len) d]) with draws := s.draws }
    rfl rfl rfl
  refine ⟨t, (run_succ_of_step (step_init s v 0 _) _).trans hrun, hphase, herr, ?_, ?_⟩
  · simpa [initialised] using hn
  · simpa [initialised] using hsigma

end Sys2Proof.Machine
end

section
/-! PROOFS. The status outputs: right after reset (R38, R220), and `digest_valid` (R30). -/

namespace Sys2Proof.Machine

theorem digestValid_iff (s : State) : digestValid s = true ↔ s.phase = .done := by
  rw [digestValid, beq_iff_eq]

/-- There is a digest to read exactly while `digest_valid` is 1 (R30, log entry 9). -/
theorem digest_isSome (s : State) : s.digest.isSome = digestValid s := by
  cases h : digestValid s <;> simp [State.digest, h]

theorem digestBus_isSome (s : State) : s.digestBus.isSome = digestValid s := by
  rw [State.digestBus, Option.isSome_map, digest_isSome]

theorem Phase.code_eq_three {p : Phase} : p.code = 3 ↔ p = .done := by
  cases p <;> decide

/-- Settles O10: the fields by their definition, `digest_valid` by the phase. -/
theorem resetStateIsIdleWithoutFault : Obligations.ResetStateIsIdleWithoutFault := by
  unfold Obligations.ResetStateIsIdleWithoutFault
  exact ⟨rfl, rfl, rfl, rfl, rfl, rfl⟩

/-- Settles O50: all three readings come down to `digest_valid` and the phase code 3. -/
theorem digestIsReadableOnlyWhenDone : Obligations.DigestIsReadableOnlyWhenDone := by
  unfold Obligations.DigestIsReadableOnlyWhenDone
  intro s
  have houtputs : s.outputs.digest.isSome = digestValid s := digestBus_isSome s
  rw [digest_isSome, houtputs, digestValid_iff]
  exact ⟨Iff.rfl, Iff.rfl, Phase.code_eq_three.symm⟩

end Sys2Proof.Machine
end

section
/-! PROOFS. A raised fault has no other effect (R61, R194), a step runs the decoded command (R64, R81), and the data
bytes a command ignores reach no register (R57, R161). -/

namespace Sys2Proof.Machine

/-- No effect of an admitted command sets `err`: only a refusal does (R193). -/
theorem err_of_admittedEffect_err {i : Instr} {s : State} (h : (admittedEffect i s).err = true) : s.err = true := by
  cases i with
  | init v256 => exact absurd h Bool.false_ne_true
  | nop | block | last len | final => exact h

/-- Settles O24: a step that acts on the context leaves `err` at 0, so the one that raises it writes nothing else. -/
theorem aRaisedFaultChangesNothingElse : Obligations.ARaisedFaultChangesNothingElse := by
  unfold Obligations.ARaisedFaultChangesNothingElse
  intro s t hstep hs ht
  rcases step_keeps_context_or_acts hstep with hkept | ⟨c, rest, -, ⟨-, rfl⟩ | ⟨-, -, i, -, -, rfl⟩⟩
  · rwa [hs] at hkept
  · exact absurd ht Bool.false_ne_true
  · have herr : s.err = true := err_of_admittedEffect_err (s := sampleData c.dataIn (dropInput s)) ht
    exact absurd (hs.symm.trans herr) Bool.false_ne_true

/-- Settles O7: the cycle is taken from the queue, accepted, and its word decodes to the command. -/
theorem stepRunsTheDecodedCommand : Obligations.StepRunsTheDecodedCommand := by
  unfold Obligations.StepRunsTheDecodedCommand
  intro s c rest i hin hrst hvalid hdec _
  rw [step_of_inputs_cons hin, runCycle_accept hrst hvalid, acceptCommand, hdec]
  simp only [sampleData, dropInput, hin, List.tail_cons]

/-- The padded tail depends on the bytes below its length alone (R161). -/
theorem padTail_congr {d d' : Bytes64} {len : BitVec 6} (h : ∀ j : Fin 64, j.val < len.toNat → d j = d' j) :
    padTail d len = padTail d' len := by
  funext j
  by_cases hj : j.val < len.toNat
  · simp only [padTail, if_pos hj, h j hj]
  · simp only [padTail, if_neg hj]

/-- `NOP`, `INIT` and `FINAL` ignore the data port (R57). -/
theorem admittedEffect_sameCore_of_ignored_data {i : Instr} (hi : i = .nop ∨ (∃ v, i = .init v) ∨ i = .final)
    (s : State) (d d' : Vec) :
    SameCore (admittedEffect i { s with dataIn := d }) (admittedEffect i { s with dataIn := d' }) := by
  rcases hi with rfl | ⟨v, rfl⟩ | rfl <;> exact ⟨rfl, rfl, rfl, rfl, rfl, rfl, rfl, rfl, rfl⟩

/-- `LAST` reads the port through the padded tail only (R166). -/
theorem lastEffect_sameCore_of_padTail_eq {len : BitVec 6} {d d' : Vec}
    (h : padTail (busByte d) len = padTail (busByte d') len) (s : State) :
    SameCore (admittedEffect (.last len) { s with dataIn := d })
      (admittedEffect (.last len) { s with dataIn := d' }) := by
  simp only [SameCore, admittedEffect, dataBytes, h]
  exact ⟨rfl, rfl, rfl, rfl, rfl, rfl, rfl, rfl, rfl⟩

/-- Two states that differ in the port data alone stay so under a command whose effect ignores the difference. -/
theorem exec_sameCore_of_dataIn (i : Instr) (s : State) {d d' : Vec}
    (h : SameCore (admittedEffect i { s with dataIn := d }) (admittedEffect i { s with dataIn := d' })) :
    ∃ t t', exec i { s with dataIn := d } = .next t ∧ exec i { s with dataIn := d' } = .next t' ∧ SameCore t t' := by
  rcases exec_of_phase_eq i (s := { s with dataIn := d }) (s' := { s with dataIn := d' }) rfl with
    ⟨ht, ht'⟩ | ⟨c, ht, ht'⟩
  · exact ⟨_, _, ht, ht', h⟩
  · exact ⟨_, _, ht, ht', rfl, rfl, rfl, rfl, rfl, rfl, rfl, rfl, rfl⟩

/-- Settles O29: a refused command never reads the port, and the effects ignore the bytes in question. -/
theorem ignoredDataBytesReachNoRegister : Obligations.IgnoredDataBytesReachNoRegister := by
  unfold Obligations.IgnoredDataBytesReachNoRegister
  refine ⟨fun i s d d' hi => ?_, fun len s d d' hbytes => ?_⟩
  · exact exec_sameCore_of_dataIn i s (admittedEffect_sameCore_of_ignored_data hi s d d')
  · exact exec_sameCore_of_dataIn (.last len) s (lastEffect_sameCore_of_padTail_eq (padTail_congr hbytes) s)

end Sys2Proof.Machine
end

section
/-! PROOFS. `SUB` (R52, R111): table `Pi` has an inverse table, so that it and `SUB` are bijections. -/

namespace Sys2Proof.Machine

/-- The inverse of table `Pi`, laid out as `piRows`; that it is one is `piInverse_romPi` and `romPi_piInverse`. -/
def piInverseRows : Vector (BitVec 128) 16 := #v[
  0xa52d328f0e3038c054e69e39557e5291#128,
  0x6403575a1c6007182172a8d129c6a43f#128,
  0xe0278d0c82eaaeb49a6349e542e415b7#128,
  0xc806709d417519c9aafc4dbf2a7384d5#128,
  0xc3af2b86a7b1b25b46d39ffdd40f9c2f#128,
  0x9b43efd979b6537fc1f023e7255eb51e#128,
  0xa2dfa6feac22f9e24abc35caee78056b#128,
  0x51e159a3f27156116a8994658cbb773c#128,
  0x7b28abd231dec45fcccf762cb8d82e36#128,
  0xdb69b31495be62a13b1666e95c6c6dad#128,
  0x37614bb9e3baf1a08583da47c5b033fa#128,
  0x966f6ec2f650ff5da98e171b977dec58#128,
  0xf71ffb7c090d7a674587dce84f1d4e04#128,
  0xebf8f33e3dbd8a88ddcd0b1398029380#128,
  0x90d02434cbedf4ce99104440923a0126#128,
  0x121a4868f5818bc7d6200a08004cd774#128]

/-- The byte that `romPi` maps to `b`. -/
def piInverse (b : Byte) : Byte :=
  piInverseRows[(b >>> 4).toNat % 16].extractLsb' (8 * (15 - b.toNat % 16)) 8

theorem piInverse_romPi : Function.LeftInverse piInverse romPi := by
  unfold Function.LeftInverse; decide +kernel

theorem romPi_piInverse : Function.RightInverse piInverse romPi := by
  unfold Function.RightInverse Function.LeftInverse; decide +kernel

theorem romPi_bijective : Function.Bijective romPi :=
  Function.bijective_iff_has_inverse.mpr ⟨piInverse, piInverse_romPi, romPi_piInverse⟩

@[simp] theorem byteAt_sub (v : Vec) (i : Fin 64) : byteAt (sub v) i = romPi (byteAt v i) :=
  byteAt_ofBytes _ i

/-- `SUB` is undone byte by byte. -/
theorem sub_bijective : Function.Bijective sub := by
  refine ⟨fun v w h => eq_of_byteAt_eq fun i => ?_, fun v => ⟨ofBytes fun i => piInverse (byteAt v i), ?_⟩⟩
  · have hi : romPi (byteAt v i) = romPi (byteAt w i) := by rw [← byteAt_sub, h, byteAt_sub]
    exact romPi_bijective.injective hi
  · exact eq_of_byteAt_eq fun i => by rw [byteAt_sub, byteAt_ofBytes, romPi_piInverse]

/-- Settles O34: the inverse table gives the bijections, `byteAt_sub` the bytes, and the listed entries are read off the
table. -/
theorem substituteIsABytewiseBijection : Obligations.SubstituteIsABytewiseBijection := by
  unfold Obligations.SubstituteIsABytewiseBijection
  refine ⟨romPi_bijective, byteAt_sub, sub_bijective, fun v b hv i => ?_, ?_⟩
  · rw [byteAt_sub, hv]
  · decide

end Sys2Proof.Machine
end

section
/-! PROOFS. `PERM` (R53, R112): table `Tau` swaps the row and the column of a byte's index. -/

namespace Sys2Proof.Machine

/-- `Tau` exchanges row `a` and column `b` (R53). -/
theorem romTau_row_column (a b : Fin 8) :
    romTau ⟨8 * a.val + b.val, by omega⟩ = ⟨8 * b.val + a.val, by omega⟩ := by
  apply Fin.ext
  simp only [romTau]
  omega

@[simp] theorem romTau_romTau (i : Fin 64) : romTau (romTau i) = i := by
  apply Fin.ext
  simp only [romTau]
  omega

/-- Settles O35: the formula is the definition. -/
theorem tauIsTheTransposeInvolution : Obligations.TauIsTheTransposeInvolution := by
  unfold Obligations.TauIsTheTransposeInvolution
  exact fun i => ⟨rfl, romTau_romTau i⟩

@[simp] theorem byteAt_perm (v : Vec) (i : Fin 64) : byteAt (perm v) i = byteAt v (romTau i) :=
  byteAt_ofBytes _ i

/-- Byte `(a, b)` of the result is byte `(b, a)` of the operand (R112). -/
theorem byteAt_perm_row_column (v : Vec) (a b : Fin 8) :
    byteAt (perm v) ⟨8 * a.val + b.val, by omega⟩ = byteAt v ⟨8 * b.val + a.val, by omega⟩ := by
  rw [byteAt_perm, romTau_row_column]

@[simp] theorem perm_perm (v : Vec) : perm (perm v) = v :=
  eq_of_byteAt_eq fun i => by rw [byteAt_perm, byteAt_perm, romTau_romTau]

/-- The diagonal entries, of index `8 * a + a`, stay (R112). -/
theorem byteAt_perm_diagonal (v : Vec) (a : Fin 8) :
    byteAt (perm v) ⟨9 * a.val, by omega⟩ = byteAt v ⟨9 * a.val, by omega⟩ := by
  have hindex : (⟨9 * a.val, by omega⟩ : Fin 64) = ⟨8 * a.val + a.val, by omega⟩ := Fin.ext (by simp only; omega)
  rw [hindex, byteAt_perm_row_column]

/-- Settles O36: all but the example follows from the byte law `byteAt_perm` and the facts about `Tau`. -/
theorem permuteTransposesTheByteMatrix : Obligations.PermuteTransposesTheByteMatrix := by
  unfold Obligations.PermuteTransposesTheByteMatrix
  refine ⟨byteAt_perm, byteAt_perm_row_column, perm_perm, byteAt_perm_diagonal, fun v b hv => ?_, ?_⟩
  · exact eq_of_byteAt_eq fun i => by rw [byteAt_perm, hv, hv]
  · decide +kernel

end Sys2Proof.Machine
end

section
/-! PROOFS. The lane function (R113) and its table `A` (R54). -/

namespace Sys2Proof.Machine

/-- One iteration of the lane function: row `j` joins the sum when bit `63 - j` of `w` is 1. -/
def selectRow (w u : Lane) (j : Fin 64) : Lane := if w.getLsbD (63 - j.val) then u ^^^ romA j else u

theorem lane_eq_foldl_selectRow (w : Lane) : lane w = (List.finRange 64).foldl (selectRow w) 0 := rfl

/-- A row selected by both operands cancels. -/
theorem selectRow_xor (x y u v : Lane) (j : Fin 64) :
    selectRow (x ^^^ y) (u ^^^ v) j = selectRow x u j ^^^ selectRow y v j := by
  simp only [selectRow, BitVec.getLsbD_xor]
  cases x.getLsbD (63 - j.val) <;> cases y.getLsbD (63 - j.val)
  · rfl
  · exact BitVec.xor_assoc u v _
  · show u ^^^ v ^^^ romA j = u ^^^ romA j ^^^ v
    ac_rfl
  · calc u ^^^ v
      _ = u ^^^ v ^^^ (romA j ^^^ romA j) := by rw [BitVec.xor_self, BitVec.xor_zero]
      _ = (u ^^^ romA j) ^^^ (v ^^^ romA j) := by ac_rfl

theorem foldl_selectRow_xor (x y : Lane) (rows : List (Fin 64)) (u v : Lane) :
    rows.foldl (selectRow (x ^^^ y)) (u ^^^ v) = rows.foldl (selectRow x) u ^^^ rows.foldl (selectRow y) v := by
  induction rows generalizing u v with
  | nil => rfl
  | cons j rows ih => rw [List.foldl_cons, selectRow_xor, ih]; rfl

/-- The lane function is linear over GF(2) (R113). -/
theorem lane_xor (x y : Lane) : lane (x ^^^ y) = lane x ^^^ lane y :=
  foldl_selectRow_xor x y (List.finRange 64) 0 0

theorem lane_zero : lane 0 = 0 :=
  calc lane 0
    _ = lane 0 ^^^ lane 0 := lane_xor 0 0
    _ = 0 := BitVec.xor_self

/-- The single bit `63 - j` selects row `j` and no other. -/
theorem selectRow_twoPow (j k : Fin 64) (u : Lane) :
    selectRow (BitVec.twoPow 64 (63 - j.val)) u k = if j = k then u ^^^ romA k else u := by
  have hbit : (BitVec.twoPow 64 (63 - j.val)).getLsbD (63 - k.val) = decide (j = k) := by
    rw [BitVec.getLsbD_twoPow, ← Bool.decide_and]
    exact decide_eq_decide.mpr (by omega)
  simp only [selectRow, hbit, decide_eq_true_eq]

theorem foldl_selectRow_twoPow (j : Fin 64) {rows : List (Fin 64)} (hrows : rows.Nodup) (u : Lane) :
    rows.foldl (selectRow (BitVec.twoPow 64 (63 - j.val))) u = if j ∈ rows then u ^^^ romA j else u := by
  induction rows generalizing u with
  | nil => rfl
  | cons k rows ih =>
    obtain ⟨hk, hrows⟩ := List.nodup_cons.mp hrows
    rw [List.foldl_cons, selectRow_twoPow, ih hrows]
    by_cases hjk : j = k
    · subst hjk
      rw [if_neg hk, if_pos rfl, if_pos List.mem_cons_self]
    · simp only [List.mem_cons, hjk, false_or, if_false]

/-- The image of a single bit is its row of `A` (R113). -/
theorem lane_twoPow (j : Fin 64) : lane (BitVec.twoPow 64 (63 - j.val)) = romA j := by
  rw [lane_eq_foldl_selectRow, foldl_selectRow_twoPow j (List.nodup_finRange 64), if_pos (List.mem_finRange j)]
  exact BitVec.zero_xor

/-- Settles O37: linearity and the single bits by the fold over the rows, the spot values by evaluation. -/
theorem laneFunctionIsLinearOnTheRows : Obligations.LaneFunctionIsLinearOnTheRows := by
  unfold Obligations.LaneFunctionIsLinearOnTheRows
  refine ⟨lane_xor, lane_zero, lane_twoPow, ?_⟩
  decide +kernel

/-- Settles O40: the 448 bytes of the 56 derived rows, read off the table. -/
theorem matrixRowsFollowByHalving : Obligations.MatrixRowsFollowByHalving := by
  unfold Obligations.MatrixRowsFollowByHalving
  decide +kernel

end Sys2Proof.Machine
end

section
/-! PROOFS. The digest by index and on the bus (R58, R181). -/

namespace Sys2Proof.Machine

theorem digestBytes_false (h : Vec) : digestBytes false h = (List.finRange 64).map (rev64Out h) := rfl

theorem digestBytes_true (h : Vec) : digestBytes true h = ((List.finRange 64).map (rev64Out h)).drop 32 := rfl

theorem digestBytes_false_length (h : Vec) : (digestBytes false h).length = 64 := by
  rw [digestBytes_false, List.length_map, List.length_finRange]

theorem digestBytes_true_length (h : Vec) : (digestBytes true h).length = 32 := by
  rw [digestBytes_true, List.length_drop, List.length_map, List.length_finRange]

theorem rev64Out_getElem? (h : Vec) (j : Fin 64) :
    ((List.finRange 64).map (rev64Out h))[j.val]? = some (byteAt h j.rev) := by
  simp

/-- The long digest is the hash, last byte first (R181). -/
theorem digestBytes_false_getElem? (h : Vec) (j : Fin 64) :
    (digestBytes false h)[j.val]? = some (byteAt h j.rev) := rev64Out_getElem? h j

/-- The short digest is the upper half of the hash, last byte first (R181). -/
theorem digestBytes_true_getElem? (h : Vec) (j : Fin 32) :
    (digestBytes true h)[j.val]? = some (byteAt h ⟨31 - j.val, by omega⟩) := by
  have hrev : (⟨32 + j.val, by omega⟩ : Fin 64).rev = ⟨31 - j.val, by omega⟩ := by
    apply Fin.ext
    simp only [Fin.val_rev]
    omega
  rw [digestBytes_true, List.getElem?_drop, ← hrev]
  exact rev64Out_getElem? h ⟨32 + j.val, by omega⟩

/-- Two buses with the same 64 bytes are equal (R57). -/
theorem eq_of_busByte_eq {a b : Vec} (h : ∀ j, busByte a j = busByte b j) : a = b :=
  eq_of_byteAt_eq fun i => by
    simpa only [busByte_eq_byteAt_rev, Fin.rev_rev] using h i.rev

/-- The long digest on the bus is the hash itself (R58). -/
theorem busOfBytes_digestBytes_false (h : Vec) : busOfBytes (digestBytes false h) = h := by
  apply eq_of_busByte_eq
  intro j
  rw [busByte_busOfBytes _ (digestBytes_false_length h).le, List.getD_eq_getElem?_getD, digestBytes_false_getElem?,
    Option.getD_some, busByte_eq_byteAt_rev]

/-- The short digest on the bus is the upper half of the hash below zeros (R58). -/
theorem busOfBytes_digestBytes_true (h : Vec) : busOfBytes (digestBytes true h) = h >>> 256 := by
  have hlen : (digestBytes true h).length = 32 := digestBytes_true_length h
  apply eq_of_busByte_eq
  intro j
  rw [busByte_busOfBytes _ (by omega), List.getD_eq_getElem?_getD, busByte_eq_byteAt_rev,
    byteAt_ushiftRight h 32 j.rev]
  by_cases hj : j.val < 32
  · rw [digestBytes_true_getElem? h ⟨j.val, hj⟩, Option.getD_some, if_pos (by rw [Fin.val_rev]; omega)]
    congr 1
    simp only [Fin.val_rev, Fin.mk.injEq]
    omega
  · rw [List.getElem?_eq_none (by omega), Option.getD_none, if_neg (by rw [Fin.val_rev]; omega)]

/-- In `DONE` the bus carries the digest bytes of the variant (R58). -/
theorem digestBus_of_done {s : State} (h : s.phase = .done) :
    s.digestBus = some (busOfBytes (digestBytes s.use256 s.hash)) := by
  rw [State.digestBus, State.digest, if_pos ((digestValid_iff s).mpr h), Option.map_some]

/-- Settles O49: the bytes by index determine the bus. -/
theorem digestIsTheReversedTruncatedHash : Obligations.DigestIsTheReversedTruncatedHash := by
  unfold Obligations.DigestIsTheReversedTruncatedHash
  refine ⟨fun h => ⟨digestBytes_false_length h, digestBytes_false_getElem? h⟩,
    fun h => ⟨digestBytes_true_length h, digestBytes_true_getElem? h⟩, fun s hdone huse => ?_, fun s hdone huse => ?_⟩
  · rw [digestBus_of_done hdone, huse, busOfBytes_digestBytes_false]
  · rw [digestBus_of_done hdone, huse, busOfBytes_digestBytes_true]

end Sys2Proof.Machine
end

section
/-! PROOFS. The decoder and the encoder (R82 to R89): a word is its four fields (`Cmd16.toWord_ofWord`), and it decodes
to a command exactly when they are the command's (`decode_eq_ok_iff`). The round trips, the illegal words and the opcode
map follow. -/

namespace Sys2Proof

open Machine (decode_encode)

/-! ### A word is its four fields -/

/-- The four fields of R82 cover the sixteen bits of a word. -/
theorem Cmd16.toWord_ofWord (w : CommandWord) : (Cmd16.ofWord w).toWord = w := by
  have hbit : (w.getLsbD 6).toNat = w.toNat / 2 ^ 6 % 2 := by
    rw [BitVec.getLsbD, Nat.toNat_testBit]
  have hw : w.toNat < 2 ^ 16 := w.isLt
  apply BitVec.eq_of_toNat_eq
  simp only [Cmd16.toWord, Cmd16.ofWord, BitVec.toNat_ofNat, BitVec.extractLsb'_toNat,
    Nat.shiftRight_eq_div_pow, hbit]
  omega

/-! ### The words that decode -/

theorem Cmd16.eq_iff {f g : Cmd16} :
    f = g ↔ f.op = g.op ∧ f.rsv = g.rsv ∧ f.v256 = g.v256 ∧ f.len = g.len := by
  cases f; cases g; exact Iff.of_eq (Cmd16.mk.injEq ..)

theorem plainCommand_eq_ok_iff {f : Cmd16} {i j : Instr} :
    plainCommand f i = .ok j ↔ f.v256 = false ∧ f.len = 0 ∧ i = j := by
  cases hv : f.v256 with
  | true => simp [plainCommand, hv]
  | false =>
    by_cases hlen : f.len = 0
    · simp [plainCommand, hv, hlen]
    · simp only [plainCommand, hv, ne_eq, hlen, not_false_eq_true, if_true, Bool.false_eq_true, if_false,
        reduceCtorEq, false_and, and_false]

/-- The opcode map reads the opcode and checks that a command without `v256` or `len` has 0 there (R83, R89). -/
theorem decodeOpcode_eq_ok_iff {f : Cmd16} {i : Instr} :
    decodeOpcode f = .ok i ↔ f.op = i.fields.op ∧ f.v256 = i.fields.v256 ∧ f.len = i.fields.len := by
  constructor
  · intro h
    unfold decodeOpcode at h
    split_ifs at h with h0 h1 hlen h2 h3 hv h4
    · obtain ⟨hv, hlen, rfl⟩ := plainCommand_eq_ok_iff.mp h
      exact ⟨h0, hv, hlen⟩
    · cases h
      exact ⟨h1, rfl, not_not.mp hlen⟩
    · obtain ⟨hv, hlen, rfl⟩ := plainCommand_eq_ok_iff.mp h
      exact ⟨h2, hv, hlen⟩
    · cases h
      exact ⟨h3, Bool.eq_false_iff.mpr hv, rfl⟩
    · obtain ⟨hv, hlen, rfl⟩ := plainCommand_eq_ok_iff.mp h
      exact ⟨h4, hv, hlen⟩
  · rintro ⟨hop, hv, hlen⟩
    cases i <;> simp_all [decodeOpcode, plainCommand, Instr.fields]

/-- A word decodes to a command exactly when its fields are the command's (R83 to R85, R89). -/
theorem decode_eq_ok_iff {w : CommandWord} {i : Instr} : decode w = .ok i ↔ Cmd16.ofWord w = i.fields := by
  have hrsv : i.fields.rsv = 0 := by cases i <;> rfl
  rw [Cmd16.eq_iff, hrsv, decode]
  by_cases h : (Cmd16.ofWord w).rsv = 0
  · simp only [h, ne_eq, not_true_eq_false, if_false, true_and, decodeOpcode_eq_ok_iff]
  · simp only [h, ne_eq, not_false_eq_true, if_true, false_and, and_false, reduceCtorEq]

/-- Settles O2: every command is well formed, and `decode_encode` holds of every command. -/
theorem decodeOfEncodeIsTheCommand : Obligations.DecodeOfEncodeIsTheCommand := by
  unfold Obligations.DecodeOfEncodeIsTheCommand
  exact fun i _ => decode_encode i

/-- The word of a command that decodes is built from the command's fields. -/
theorem encode_of_decode {w : CommandWord} {i : Instr} (h : decode w = .ok i) : encode i = w := by
  rw [encode, ← decode_eq_ok_iff.mp h, Cmd16.toWord_ofWord]

/-- Settles O3, by the fields of the word. -/
theorem encodeOfDecodeIsTheWord : Obligations.EncodeOfDecodeIsTheWord := by
  unfold Obligations.EncodeOfDecodeIsTheWord
  exact fun w i => encode_of_decode

/-! ### The illegal words -/

/-- A word is legal when none of the four clauses of R86 holds. -/
theorem Cmd16.legal_iff {f : Cmd16} :
    f.legal = true ↔ f.op.toNat < 5 ∧ f.rsv = 0 ∧ (f.v256 = true → f.op = 1) ∧ (f.len ≠ 0 → f.op = 3) := by
  simp only [Cmd16.legal, Cmd16.opcodeDefined, Cmd16.reservedZero, Cmd16.variantInInit, Cmd16.lengthInLast,
    Bool.and_eq_true, decide_eq_true_eq, beq_iff_eq, Bool.or_eq_true, Bool.not_eq_true', ← Bool.not_eq_true,
    imp_iff_not_or, not_not, and_assoc]

theorem Instr.fields_legal (i : Instr) : i.fields.legal = true := by
  rw [Cmd16.legal_iff]
  cases i <;> simp [Instr.fields]

/-- The legal fields of each opcode are those of its command (R83, R86). -/
theorem Cmd16.exists_eq_fields_of_legal {f : Cmd16} (h : f.legal = true) : ∃ i : Instr, f = i.fields := by
  obtain ⟨op, rsv, v256, len⟩ := f
  obtain ⟨hop, rfl, hv, hlen⟩ := Cmd16.legal_iff.mp h
  have hcases : op = 0 ∨ op = 1 ∨ op = 2 ∨ op = 3 ∨ op = 4 := by simp only at hop; bv_omega
  rcases hcases with rfl | rfl | rfl | rfl | rfl
  · exact ⟨.nop, by simp_all [Instr.fields]⟩
  · exact ⟨.init v256, by simp_all [Instr.fields]⟩
  · exact ⟨.block, by simp_all [Instr.fields]⟩
  · exact ⟨.last len, by simp_all [Instr.fields]⟩
  · exact ⟨.final, by simp_all [Instr.fields]⟩

/-- The decoder accepts exactly the legal words (R86, R89). -/
theorem exists_decode_eq_ok_iff {w : CommandWord} :
    (∃ i, decode w = .ok i) ↔ (Cmd16.ofWord w).legal = true := by
  simp only [decode_eq_ok_iff]
  exact ⟨fun ⟨i, hi⟩ => hi ▸ i.fields_legal, Cmd16.exists_eq_fields_of_legal⟩

theorem exists_decode_eq_error_iff {w : CommandWord} :
    (∃ e, decode w = .error e) ↔ ¬ (Cmd16.ofWord w).legal = true := by
  rw [← exists_decode_eq_ok_iff]
  cases decode w <;> simp

/-- A word is refused exactly when a clause of R86 calls it illegal. -/
theorem exists_decode_eq_error_iff_clauses (w : CommandWord) :
    (∃ e, decode w = .error e) ↔
      (5 ≤ (w.extractLsb' 12 4).toNat ∨ w.extractLsb' 7 5 ≠ 0 ∨
       (w.getLsbD 6 = true ∧ w.extractLsb' 12 4 ≠ 1) ∨
       (w.extractLsb' 0 6 ≠ 0 ∧ w.extractLsb' 12 4 ≠ 3)) := by
  rw [exists_decode_eq_error_iff, Cmd16.legal_iff]
  simp only [Cmd16.ofWord, not_and_or, not_lt, Classical.not_imp, ne_eq]

/-! ### The opcode map -/

/-- The word of every command matches the command's row (R83). -/
theorem tableMatch (i : Instr) : Laws.TableMatch.Statement i := by
  cases i with
  | nop => exact Laws.TableMatch.nop
  | init v256 => exact Laws.TableMatch.init v256
  | block => exact Laws.TableMatch.block
  | last len => exact Laws.TableMatch.last len
  | final => exact Laws.TableMatch.final

theorem mem_opcodeTable {r : OpcodeRow} (h : r ∈ opcodeTable) :
    r = Instr.nop.row ∨ r = (Instr.init false).row ∨ r = Instr.block.row ∨ r = (Instr.last 0).row ∨
      r = Instr.final.row := by
  simpa only [opcodeTable, List.mem_cons, List.not_mem_nil, or_false] using h

/-- The bits that a row leaves open are always those of an operand (R83 to R85). -/
theorem exists_operandBits_eq {r : OpcodeRow} (hr : r ∈ opcodeTable) (w : CommandWord) :
    ∃ i : Instr, i.row = r ∧ Laws.operandBits i = w &&& ~~~ r.mask := by
  have hnone : w &&& ~~~ 0xFFFF#16 = 0 := BitVec.and_zero
  rcases mem_opcodeTable hr with rfl | rfl | rfl | rfl | rfl
  · exact ⟨.nop, rfl, hnone.symm⟩
  · exact ⟨.init (w.getLsbD 6), rfl, (BitVec.and_twoPow w 6).symm⟩
  · exact ⟨.block, rfl, hnone.symm⟩
  · refine ⟨.last (w.extractLsb' 0 6), rfl, ?_⟩
    apply BitVec.eq_of_toNat_eq
    have hmask : (~~~ (Instr.last 0).row.mask).toNat = 2 ^ 6 - 1 := by decide
    rw [BitVec.toNat_and, hmask, Nat.and_two_pow_sub_one_eq_mod, Laws.operandBits,
      BitVec.toNat_setWidth_of_le (by decide), BitVec.extractLsb'_toNat, Nat.shiftRight_zero]
  · exact ⟨.final, rfl, hnone.symm⟩

/-- Two words that agree under a mask and outside it are equal. -/
theorem eq_of_and_mask_eq {u w m : CommandWord} (h : u &&& m = w &&& m) (h' : u &&& ~~~ m = w &&& ~~~ m) :
    u = w := by
  have hsplit (x : CommandWord) : x &&& m ||| x &&& ~~~ m = x := by
    rw [← BitVec.and_or_distrib_left, BitVec.or_not_self, BitVec.and_allOnes]
  rw [← hsplit u, h, h', hsplit]

/-- A word selects a row exactly when it is the word of a command of that row (R83). -/
theorem selects_iff {r : OpcodeRow} (hr : r ∈ opcodeTable) (w : CommandWord) :
    r.selects w ↔ ∃ i, decode w = .ok i ∧ i.row = r := by
  constructor
  · intro hw
    obtain ⟨i, rfl, hbits⟩ := exists_operandBits_eq hr w
    obtain ⟨hpattern, hopen⟩ := tableMatch i
    have hi : encode i = w := eq_of_and_mask_eq (hpattern.trans hw.symm) (hopen.trans hbits)
    exact ⟨i, hi ▸ decode_encode i, rfl⟩
  · rintro ⟨i, hi, rfl⟩
    rw [← encode_of_decode hi]
    exact (tableMatch i).left

/-- Two rows that a word selects are the row of the one command it decodes to. -/
theorem selects_unique {r r' : OpcodeRow} (hr : r ∈ opcodeTable) (hr' : r' ∈ opcodeTable) {w : CommandWord}
    (h : r.selects w) (h' : r'.selects w) : r = r' := by
  obtain ⟨i, hi, rfl⟩ := (selects_iff hr w).mp h
  obtain ⟨j, hj, rfl⟩ := (selects_iff hr' w).mp h'
  rw [Except.ok.inj (hi.symm.trans hj)]

/-- Settles O4: the rows are the listed ones, and the other clauses follow from `selects_iff` and from the illegal words
with a reserved opcode. -/
theorem opcodeRowsSelectTheirCommands : Obligations.OpcodeRowsSelectTheirCommands := by
  unfold Obligations.OpcodeRowsSelectTheirCommands
  exact ⟨rfl, fun w r hr => selects_iff hr w, fun w r hr r' hr' => selects_unique hr hr',
    fun w hop => (exists_decode_eq_error_iff_clauses w).mpr (.inl hop)⟩

/-- Settles O1: the listed words are the encodings of their commands. -/
theorem listedWordsDecodeAsTheTableSays : Obligations.ListedWordsDecodeAsTheTableSays := by
  unfold Obligations.ListedWordsDecodeAsTheTableSays
  exact ⟨decode_encode .nop, decode_encode (.init false), decode_encode (.init true), decode_encode .block,
    decode_encode (.last 0), decode_encode (.last 8), decode_encode (.last 63), decode_encode .final⟩

end Sys2Proof
end

section
/-! PROOFS. What a step does with an illegal word (R86) and without a command (R81, R207). -/

namespace Sys2Proof.Machine

/-- An accepted illegal word raises `ILLEGAL_CMD` whatever the phase (R86, R192). -/
theorem acceptCommand_of_illegal {w : CommandWord} {e : DecodeRefusal} (h : decode w = .error e) (d : Vec)
    (s : State) : acceptCommand w d s = .next (raiseFault .illegalCmd (sampleData d s)) := by
  rw [acceptCommand, h]

/-- Settles O5: the clauses decide whether the decoder refuses, and the refusal does not look at the phase. -/
theorem illegalWordsAreRefused : Obligations.IllegalWordsAreRefused := by
  unfold Obligations.IllegalWordsAreRefused
  refine ⟨exists_decode_eq_error_iff_clauses, fun s w d e rest hw hin => ?_⟩
  rw [step_of_inputs_cons hin, runCycle_accept rfl rfl, acceptCommand_of_illegal hw]
  simp only [raiseFault, latchCause, sampleData, dropInput, hin, List.tail_cons, FaultCause.code]

/-- Settles O8: an idle cycle is taken from the queue and nothing else happens. -/
theorem stepWithoutCommandKeepsEveryRegister : Obligations.StepWithoutCommandKeepsEveryRegister := by
  unfold Obligations.StepWithoutCommandKeepsEveryRegister
  refine ⟨fun s => step_of_inputs_nil, fun s c rest hin hrst hvalid => ?_⟩
  rw [step_of_inputs_cons hin, runCycle_idle hrst hvalid, dropInput, hin, List.tail_cons]

end Sys2Proof.Machine
end

section
/-! PROOFS. The length that the core forms from `len`, and its bytes in `block_size` (R85). -/

namespace Sys2Proof.Machine

/-- `block_size` is the zero extension of a 16-bit length: its bytes are those of the length, big-endian, below
zeros (R85, R162). -/
theorem byteAt_blockSizeOf (bits : BitVec 16) (i : Fin 64) :
    byteAt (blockSizeOf bits) i = bits.extractLsb' (504 - 8 * i.val) 8 := by
  apply BitVec.eq_of_getLsbD_eq
  intro b hb
  simp only [getLsbD_byteAt, blockSizeOf, BitVec.getLsbD_setWidth, BitVec.getLsbD_extractLsb']
  have hbit : 504 - 8 * i.val + b < 512 := by omega
  simp only [hb, hbit, decide_true, Bool.true_and]

theorem byteAt_blockSizeOf_eq_zero (bits : BitVec 16) {i : Fin 64} (hi : i.val < 62) :
    byteAt (blockSizeOf bits) i = 0 := by
  rw [byteAt_blockSizeOf]
  apply BitVec.eq_of_getLsbD_eq
  intro b hb
  rw [BitVec.getLsbD_extractLsb', BitVec.getLsbD_of_ge _ _ (by omega), Bool.and_false]
  exact BitVec.getLsbD_zero.symm

/-- The word of a `LAST` is 0x3000 + `len` (R83, R85). -/
theorem encode_last (len : BitVec 6) : encode (.last len) = 0x3000 + len.setWidth 16 := by
  revert len; decide

/-- Settles O6: the lengths by their own lemmas, the bytes of `block_size` by `byteAt_blockSizeOf`. -/
theorem tailBitLengthIsEightTimesLen : Obligations.TailBitLengthIsEightTimesLen := by
  unfold Obligations.TailBitLengthIsEightTimesLen
  refine ⟨fun len => ?_, fun len => encode_last len ▸ decode_encode (.last len), chunkBits_toNat,
    (blockSizeOf_toNat _).trans chunkBits_toNat⟩
  have hlen : len.toNat < 64 := len.isLt
  refine ⟨tailBits_toNat len, by rw [tailBits_toNat]; omega, by rw [blockSizeOf_toNat, tailBits_toNat],
    byteAt_blockSizeOf _ 62, byteAt_blockSizeOf _ 63, fun i hi => byteAt_blockSizeOf_eq_zero _ hi⟩

end Sys2Proof.Machine
end

section
/-! PROOFS. The host's lines (R90 to R96): a byte sequence is its full chunks and its tail, and the bytes that follow
continue at the tail, so that splitting a message over `Update` calls changes nothing (R93, R169). -/

namespace Sys2Proof.Machine

/-! ### Chunks and tail -/

theorem tailOf_length (bytes : List Byte) : (tailOf bytes).length = bytes.length % 64 := by
  rw [tailOf, List.length_drop]
  omega

theorem blockLines_length (bytes : List Byte) : (blockLines bytes).length = bytes.length / 64 := by
  rw [blockLines, List.length_map, List.length_range]

/-- A sequence shorter than a chunk is its own tail. -/
theorem tailOf_of_length_lt {bytes : List Byte} (h : bytes.length < 64) : tailOf bytes = bytes := by
  rw [tailOf, Nat.div_eq_of_lt h, Nat.mul_zero, List.drop_zero]

theorem blockLines_of_length_lt {bytes : List Byte} (h : bytes.length < 64) : blockLines bytes = [] :=
  List.length_eq_zero_iff.mp ((blockLines_length bytes).trans (Nat.div_eq_of_lt h))

/-- Past its full chunks a longer sequence is the tail and what follows it. -/
theorem drop_append_eq_tailOf_append (bytes more : List Byte) :
    (bytes ++ more).drop (64 * (bytes.length / 64)) = tailOf bytes ++ more :=
  List.drop_append_of_le_length (Nat.mul_div_le _ _)

/-- The number of full chunks of the whole: those of the first part, and those of its tail with the rest. -/
theorem append_chunks (bytes more : List Byte) :
    (bytes ++ more).length / 64 = bytes.length / 64 + (tailOf bytes ++ more).length / 64 := by
  rw [List.length_append, List.length_append, tailOf_length]
  omega

theorem tailOf_tailOf_append (bytes more : List Byte) : tailOf (tailOf bytes ++ more) = tailOf (bytes ++ more) := by
  symm
  rw [tailOf, append_chunks, Nat.mul_add, ← List.drop_drop, drop_append_eq_tailOf_append]
  rfl

theorem chunkAt_append_of_lt {bytes : List Byte} {i : Nat} (h : i < bytes.length / 64) (more : List Byte) :
    chunkAt (bytes ++ more) i = chunkAt bytes i := by
  have hlen : 64 ≤ (bytes.drop (64 * i)).length := by rw [List.length_drop]; omega
  rw [chunkAt, chunkAt, List.drop_append_of_le_length (by omega), List.take_append_of_le_length hlen]

theorem chunkAt_append_add (bytes more : List Byte) (i : Nat) :
    chunkAt (bytes ++ more) (bytes.length / 64 + i) = chunkAt (tailOf bytes ++ more) i := by
  rw [chunkAt, chunkAt, Nat.mul_add, ← List.drop_drop, drop_append_eq_tailOf_append]

/-- The lines of the whole are those of the first part, then those of its tail with the rest (R93). -/
theorem blockLines_append (bytes more : List Byte) :
    blockLines (bytes ++ more) = blockLines bytes ++ blockLines (tailOf bytes ++ more) := by
  rw [blockLines, append_chunks, List.range_add, List.map_append, List.map_map]
  congr 1
  · apply List.map_congr_left
    intro i hi
    rw [chunkAt_append_of_lt (List.mem_range.mp hi)]
  · apply List.map_congr_left
    intro i _
    rw [Function.comp_apply, chunkAt_append_add]

/-! ### The calls of the host -/

/-- Two `Update` calls in a row are one with the bytes of both (R93). -/
theorem hostUpdate_append (h : HostContext) (bytes more : List Byte) :
    hostUpdate h (bytes ++ more) =
      ((hostUpdate (hostUpdate h bytes).1 more).1,
        (hostUpdate h bytes).2 ++ (hostUpdate (hostUpdate h bytes).1 more).2) := by
  simp only [hostUpdate, ← List.append_assoc, tailOf_tailOf_append, blockLines_append (h.tail ++ bytes)]

/-- Any `Update` calls are one with all the bytes, when the tail before them is short of a chunk (R93, R169). -/
theorem hostUpdates_eq_hostUpdate_flatten (calls : List (List Byte)) {h : HostContext} (hh : h.tail.length < 64) :
    hostUpdates h calls = hostUpdate h calls.flatten := by
  induction calls generalizing h with
  | nil =>
    rw [hostUpdates, List.flatten_nil, hostUpdate, List.append_nil, tailOf_of_length_lt hh, blockLines_of_length_lt hh]
  | cons bytes calls ih =>
    have htail : (hostUpdate h bytes).1.tail.length < 64 :=
      (tailOf_length _).trans_lt (Nat.mod_lt _ (by decide))
    rw [hostUpdates, ih htail, List.flatten_cons, hostUpdate_append]

/-- Settles O54: `Init` starts with the empty tail, so the calls are one, and that one with `Digest` is the one-shot
sequence by definition. -/
theorem updateSplittingDoesNotMatter : Obligations.UpdateSplittingDoesNotMatter := by
  unfold Obligations.UpdateSplittingDoesNotMatter
  intro v256 calls
  have hcalls : hostUpdates (hostInit v256).1 calls = hostUpdate (hostInit v256).1 calls.flatten :=
    hostUpdates_eq_hostUpdate_flatten calls (Nat.zero_lt_succ 63)
  rw [hcalls]
  exact ⟨rfl, (tailOf_length _).trans_lt (Nat.mod_lt _ (by decide)), rfl⟩

theorem oneShot_length (v256 : Bool) (message : List Byte) :
    (oneShot v256 message).length = message.length / 64 + 3 := by
  rw [oneShot, List.length_cons, List.length_append, blockLines_length]
  rfl

/-- Settles O53: `INIT`, the `BLOCK`s, `LAST` and `FINAL`. -/
theorem oneShotCommandCount : Obligations.OneShotCommandCount := by
  unfold Obligations.OneShotCommandCount
  exact oneShot_length

end Sys2Proof.Machine
end

section
/-! PROOFS. The one-shot sequence computes the function of R183: line by line, the registers `hash`, `n`, `sigma` of the
core hold the running values `h`, `N`, `S` of the function (`InContext`). -/

namespace Sys2Proof.Machine

/-- The running values of R183 that the registers of a core hold. -/
def State.hashRun (s : State) : HashRun := { h := s.hash, N := s.n, S := s.sigma }

/-- The core is in phase `p` of a context of the given variant without a fault, its registers hold the running values
`r`, and `cycles` are presented next. -/
structure InContext (p : Phase) (v256 : Bool) (r : HashRun) (cycles : List InputCycle) (s : State) : Prop where
  phase : s.phase = p
  err : s.err = false
  use256 : s.use256 = v256
  hashRun : s.hashRun = r
  inputs : s.inputs = cycles

/-! ### The bytes of a line on the bus -/

/-- The bus of a line carries the bytes the line keeps, `d[0]` first (R57, R90). -/
theorem busByte_busOfBytes_take (bytes : List Byte) {k : Nat} (hk : k ≤ 64) {j : Fin 64} (hj : j.val < k) :
    busByte (busOfBytes (bytes.take k)) j = bytes64Of bytes j := by
  have hlen : (bytes.take k).length ≤ 64 := (List.length_take_le k bytes).trans hk
  rw [busByte_busOfBytes _ hlen, bytes64Of, List.getD_eq_getElem?_getD, List.getElem?_take_of_lt hj,
    List.getD_eq_getElem?_getD]

theorem busByte_block_data (bytes : List Byte) : busByte (CommandLine.block bytes).data = bytes64Of bytes :=
  funext fun j => busByte_busOfBytes_take bytes (Nat.le_refl 64) j.isLt

/-- Padding hides the bytes beyond the length of the tail (R161). -/
theorem padTail_last_data (len : BitVec 6) (bytes : List Byte) :
    padTail (busByte (CommandLine.last len bytes).data) len = padTail (bytes64Of bytes) len :=
  padTail_congr fun _ hj => busByte_busOfBytes_take bytes (Nat.le_of_lt len.isLt) hj

/-! ### Each command does its part of R183 -/

theorem blockSizeOf_eq_ofNat (bits : BitVec 16) : blockSizeOf bits = BitVec.ofNat 512 bits.toNat :=
  (BitVec.ofNat_toNat 512 bits).symm

/-- `ABSORB` is the absorb step of R183 (R162). -/
theorem absorbBlock_loadBlock_hashRun (bits : BitVec 16) (m : Vec) (s : State) :
    (absorbBlock bits (loadBlock m s)).hashRun = hashAbsorb bits.toNat m s.hashRun := by
  simp only [State.hashRun, hashAbsorb, absorbBlock_hash, absorbBlock_n, absorbBlock_sigma, loadBlock_hash,
    loadBlock_n, loadBlock_sigma, loadBlock_block, blockSizeOf_eq_ofNat]

/-- A `BLOCK` line absorbs its chunk (R165). -/
theorem InContext.step_block {v256 : Bool} {r : HashRun} {bytes : List Byte} {rest : List InputCycle} {s : State}
    (h : InContext .absorb v256 r ((CommandLine.block bytes).cycle :: rest) s) :
    ∃ t, step s = .next t ∧
      InContext .absorb v256 (hashAbsorb 512 (rev64 (bytes64Of bytes)) r) rest t := by
  have hstep := step_of_admitted_command h.inputs (admissionCause_block_eq_none.mpr h.phase)
  refine ⟨_, hstep, h.phase, h.err, h.use256, ?_, congrArg List.tail h.inputs⟩
  rw [← h.hashRun, ← busByte_block_data]
  exact absorbBlock_loadBlock_hashRun chunkBits _ _

/-- A `LAST` line absorbs its padded tail (R166). -/
theorem InContext.step_last {v256 : Bool} {r : HashRun} {len : BitVec 6} {bytes : List Byte}
    {rest : List InputCycle} {s : State}
    (h : InContext .absorb v256 r ((CommandLine.last len bytes).cycle :: rest) s) :
    ∃ t, step s = .next t ∧
      InContext .padded v256 (hashAbsorb (8 * len.toNat) (rev64 (padTail (bytes64Of bytes) len)) r) rest t := by
  have hstep := step_of_admitted_command h.inputs (admissionCause_last_eq_none.mpr h.phase)
  refine ⟨_, hstep, rfl, h.err, h.use256, ?_, congrArg List.tail h.inputs⟩
  rw [← h.hashRun, ← padTail_last_data, ← tailBits_toNat]
  exact absorbBlock_loadBlock_hashRun (tailBits len) _ _

/-- A `FINAL` line closes the hash (R180). -/
theorem InContext.step_final {v256 : Bool} {r : HashRun} {rest : List InputCycle} {s : State}
    (h : InContext .padded v256 r (CommandLine.final.cycle :: rest) s) :
    ∃ t, step s = .next t ∧ InContext .done v256 { r with h := hashClose r } rest t := by
  have hstep := step_of_admitted_command h.inputs (admissionCause_final_eq_none.mpr h.phase)
  refine ⟨_, hstep, rfl, h.err, h.use256, ?_, congrArg List.tail h.inputs⟩
  rw [← h.hashRun]
  rfl

/-! ### The whole sequence -/

/-- The lines of chunks that stand next in the queue absorb them in order (R96, R183). -/
theorem InContext.run_blocks (message : List Byte) (indices : List Nat) {v256 : Bool} {r : HashRun}
    {rest : List InputCycle} {s : State}
    (h : InContext .absorb v256 r
      ((indices.map fun i => CommandLine.block (chunkAt message i)).map CommandLine.cycle ++ rest) s) :
    ∃ t, (∀ fuel, core.run (indices.length + fuel) s = core.run fuel t) ∧
      InContext .absorb v256
        (indices.foldl (fun r i => hashAbsorb 512 (rev64 (bytes64Of (chunkAt message i))) r) r) rest t := by
  induction indices generalizing r s with
  | nil => exact ⟨s, fun fuel => by rw [List.length_nil, Nat.zero_add], h⟩
  | cons i indices ih =>
    obtain ⟨m, hstep, hm⟩ := h.step_block
    obtain ⟨t, hrun, ht⟩ := ih hm
    refine ⟨t, fun fuel => ?_, ht⟩
    rw [List.length_cons, Nat.add_right_comm, run_succ_of_step hstep, hrun]

/-- The tail and its length, as the host sends them, complete the run of R183. -/
theorem hashAbsorb_tailOf (v256 : Bool) (message : List Byte) :
    hashAbsorb (8 * (BitVec.ofNat 6 (tailOf message).length).toNat)
        (rev64 (padTail (bytes64Of (tailOf message)) (BitVec.ofNat 6 (tailOf message).length)))
        (hashChunks v256 message) = hashMessage v256 message := by
  have hlt : message.length % 64 < 2 ^ 6 := Nat.mod_lt _ (by decide)
  rw [tailOf_length, BitVec.toNat_ofNat, Nat.mod_eq_of_lt hlt]
  rfl

/-- The full chunks of a message bring a fresh context to the running values of `hashChunks` (R96, R183). -/
theorem InContext.run_blockLines {v256 : Bool} {message : List Byte} {rest : List InputCycle} {s : State}
    (h : InContext .absorb v256 (hashStart v256) ((blockLines message).map CommandLine.cycle ++ rest) s) :
    ∃ t, (∀ fuel, core.run (message.length / 64 + fuel) s = core.run fuel t) ∧
      InContext .absorb v256 (hashChunks v256 message) rest t := by
  obtain ⟨t, hrun, ht⟩ := InContext.run_blocks message (List.range (message.length / 64)) h
  rw [List.length_range] at hrun
  exact ⟨t, hrun, ht⟩

/-- The two lines of `Digest` absorb the tail and close the hash (R94, R183). -/
theorem InContext.run_digestLines {v256 : Bool} {message : List Byte} {s : State}
    (h : InContext .absorb v256 (hashChunks v256 message) ((digestLines (tailOf message)).map CommandLine.cycle) s) :
    ∃ t, core.run 2 s = .next t ∧
      InContext .done v256 { hashMessage v256 message with h := hashClose (hashMessage v256 message) } [] t := by
  obtain ⟨m, hlast, hm⟩ := h.step_last
  rw [hashAbsorb_tailOf] at hm
  obtain ⟨t, hfinal, ht⟩ := hm.step_final
  exact ⟨t, (run_succ_of_step hlast 1).trans (run_succ_of_step hfinal 0), ht⟩

/-- In `DONE` the digest is read off the hash in the variant of the context (R181). -/
theorem InContext.digest {v256 : Bool} {r : HashRun} {cycles : List InputCycle} {s : State}
    (h : InContext .done v256 r cycles s) : s.digest = some (digestBytes v256 r.h) := by
  rw [State.digest, if_pos ((digestValid_iff s).mpr h.phase), h.use256, ← h.hashRun]
  rfl

/-- An `INIT` starts the run of R183 with the initial value of the variant (R164). -/
theorem initialised_inContext (v256 : Bool) (data : Vec) (cycles : List InputCycle) (draws : Nat) :
    InContext .absorb v256 (hashStart v256) cycles { initialised v256 data cycles with draws := draws } :=
  ⟨rfl, rfl, rfl, rfl, rfl⟩

theorem oneShot_cycles (v256 : Bool) (message : List Byte) :
    (oneShot v256 message).map CommandLine.cycle =
      commandCycle (.init v256) 0 ::
        ((blockLines message).map CommandLine.cycle ++ (digestLines (tailOf message)).map CommandLine.cycle) := by
  rw [oneShot, List.map_cons, List.map_append]
  rfl

/-- Settles O52: the `INIT`, the full chunks and the two lines of `Digest`, one after the other. -/
theorem oneShotSequenceComputesStreebog : Obligations.OneShotSequenceComputesStreebog := by
  unfold Obligations.OneShotSequenceComputesStreebog
  intro s v256 message
  obtain ⟨a, hblocks, ha⟩ := (initialised_inContext v256 0 _ s.draws).run_blockLines (message := message)
  obtain ⟨t, hdigest, ht⟩ := ha.run_digestLines
  refine ⟨t, ?_, ⟨ht.phase, ht.err⟩, ht.inputs, ht.digest⟩
  rw [oneShot_length, oneShot_cycles]
  exact (run_succ_of_step (step_init s v256 0 _) (message.length / 64 + 2)).trans ((hblocks 2).trans hdigest)

end Sys2Proof.Machine
end

section
/-! PROOFS. `XOR512` (R110). -/

namespace Sys2Proof.Machine

/-- Settles O33: the byte law is `byteAt_xor`, the corner cases are the laws of exclusive or. -/
theorem xorIsBytewise : Obligations.XorIsBytewise := by
  unfold Obligations.XorIsBytewise
  refine ⟨byteAt_xor, fun a => BitVec.xor_self, fun a => BitVec.xor_zero, BitVec.xor_comm, BitVec.xor_assoc, ?_⟩
  decide +kernel

end Sys2Proof.Machine
end

section
/-! PROOFS. The fast form of the lane function (R115): the 64 rows that `lane` goes through are eight blocks of eight,
and the rows selected in block `p` add up to the entry of table `T[p]` at byte `p` of the lane. -/

namespace Sys2Proof.Machine

/-- The XOR of terms of which only that of `p` can be nonzero is that term. -/
theorem foldl_xor_of_forall_ne_eq_zero {f : Fin 8 → Lane} {p : Fin 8} (hf : ∀ q, q ≠ p → f q = 0#64)
    {terms : List (Fin 8)} (hterms : terms.Nodup) (u : Lane) :
    terms.foldl (fun u q => u ^^^ f q) u = if p ∈ terms then u ^^^ f p else u := by
  induction terms generalizing u with
  | nil => rfl
  | cons q terms ih =>
    obtain ⟨hq, hterms⟩ := List.nodup_cons.mp hterms
    rw [List.foldl_cons, ih hterms]
    by_cases hqp : q = p
    · subst hqp
      rw [if_neg hq, if_pos List.mem_cons_self]
    · simp only [hf q hqp, BitVec.xor_zero, List.mem_cons, Ne.symm hqp, false_or]

/-- The rows of table `A` are eight blocks of eight. -/
theorem finRange_eq_blocks :
    List.finRange 64 = (List.finRange 8).flatMap fun p =>
      (List.finRange 8).map fun k : Fin 8 => (⟨8 * p.val + k.val, by omega⟩ : Fin 64) := by
  decide

/-- The sum of a block goes on from whatever was summed before it. -/
theorem foldl_block (w u v : Lane) (p : Fin 8) (places : List (Fin 8)) :
    places.foldl (fun u k => selectRow w u ⟨8 * p.val + k.val, by omega⟩) (u ^^^ v) =
      u ^^^ places.foldl
        (fun v k => if (w.extractLsb' (56 - 8 * p.val) 8).getLsbD (7 - k.val) then
          v ^^^ romA ⟨8 * p.val + k.val, by omega⟩ else v) v := by
  induction places generalizing v with
  | nil => rfl
  | cons k places ih =>
    have hbit : (w.extractLsb' (56 - 8 * p.val) 8).getLsbD (7 - k.val) = w.getLsbD (63 - (8 * p.val + k.val)) := by
      rw [BitVec.getLsbD_extractLsb', decide_eq_true (by omega), Bool.true_and]
      congr 1
      omega
    rw [List.foldl_cons, List.foldl_cons, ← ih, hbit, selectRow]
    congr 1
    split
    · exact BitVec.xor_assoc ..
    · rfl

/-- The rows selected in block `p` add up to the entry of `T[p]` at byte `p`. -/
theorem foldl_block_eq_fastTable (w u : Lane) (p : Fin 8) :
    (List.finRange 8).foldl (fun u k => selectRow w u ⟨8 * p.val + k.val, by omega⟩) u =
      u ^^^ fastTable p (w.extractLsb' (56 - 8 * p.val) 8) := by
  have h := foldl_block w u 0 p (List.finRange 8)
  rwa [show u ^^^ 0 = u from BitVec.xor_zero] at h

/-- The fast form of the lane function equals the bit-by-bit form (R115). -/
theorem laneFast_eq_lane (w : Lane) : laneFast w = lane w := by
  rw [lane_eq_foldl_selectRow, finRange_eq_blocks, List.foldl_flatMap]
  simp only [List.foldl_map, foldl_block_eq_fastTable]
  rfl

theorem fastTable_zero (p : Fin 8) : fastTable p 0 = 0 := by
  revert p
  decide

/-- Byte `q` of a lane that holds `b` at position `p` and is zero elsewhere. -/
theorem extractLsb'_placedByte (p q : Fin 8) (b : Byte) :
    (b.setWidth 64 <<< (56 - 8 * p.val)).extractLsb' (56 - 8 * q.val) 8 = if q = p then b else 0 := by
  apply BitVec.eq_of_getLsbD_eq
  intro i hi
  rw [BitVec.getLsbD_extractLsb', BitVec.getLsbD_shiftLeft, BitVec.getLsbD_setWidth]
  split
  · next h =>
    subst h
    have hplace : 56 - 8 * q.val + i - (56 - 8 * q.val) = i := by omega
    have hlow : ¬ 56 - 8 * q.val + i < 56 - 8 * q.val := by omega
    have hlane : 56 - 8 * q.val + i < 64 ∧ i < 64 := by omega
    simp [hplace, hlow, hlane, hi]
  · next h =>
    have hne : q.val ≠ p.val := fun hval => h (Fin.ext hval)
    obtain hbelow | habove :
        56 - 8 * q.val + i < 56 - 8 * p.val ∨ 8 ≤ 56 - 8 * q.val + i - (56 - 8 * p.val) := by omega
    · simp [hbelow]
    · simp [BitVec.getLsbD_of_ge b _ habove]

/-- Every entry of the fast table is the lane function of its byte at its position (R115). -/
theorem fastTable_eq_lane (p : Fin 8) (b : Byte) : fastTable p b = lane (b.setWidth 64 <<< (56 - 8 * p.val)) := by
  have hother : ∀ q, q ≠ p →
      fastTable q ((b.setWidth 64 <<< (56 - 8 * p.val)).extractLsb' (56 - 8 * q.val) 8) = 0 := by
    intro q hq
    rw [extractLsb'_placedByte, if_neg hq, fastTable_zero]
  rw [← laneFast_eq_lane, laneFast,
    foldl_xor_of_forall_ne_eq_zero hother (List.nodup_finRange 8), if_pos (List.mem_finRange p),
    extractLsb'_placedByte, if_pos rfl]
  exact BitVec.zero_xor.symm

/-- An entry of the fast table as a sum over all eight rows of its block, those not selected counting as zero. -/
theorem fastTable_eq_foldl_xor (p : Fin 8) (b : Byte) :
    fastTable p b = (List.finRange 8).foldl
      (fun u k => u ^^^ if b.getLsbD (7 - k.val) then romA ⟨8 * p.val + k.val, by omega⟩ else 0) 0 := by
  apply List.foldl_ext
  intro u k _
  split
  · rfl
  · exact BitVec.xor_zero.symm

/-- Settles O39: the equalities by the split into blocks, the listed entries by evaluation. -/
theorem fastTableEqualsTheBitwiseDefinition : Obligations.FastTableEqualsTheBitwiseDefinition := by
  unfold Obligations.FastTableEqualsTheBitwiseDefinition
  refine ⟨laneFast_eq_lane, fastTable_eq_lane, fastTable_eq_foldl_xor, fastTable_zero, ?_⟩
  decide +kernel

end Sys2Proof.Machine
end

section
/-! PROOFS. `LIN` (R114): the lane function reaches every single bit, hence by linearity every lane, so that it and `LIN`
are bijections. -/

namespace Sys2Proof.Machine

/-- What holds of zero and of every single bit, and is kept by XOR, holds of every lane: the bits of `w` join one by one,
the lowest first. -/
theorem lane_induction {P : Lane → Prop} (hzero : P 0) (hbit : ∀ i : Fin 64, P (BitVec.twoPow 64 i.val))
    (hxor : ∀ x y, P x → P y → P (x ^^^ y)) (w : Lane) : P w := by
  have hlowest : ∀ n ≤ 64, P ((w.setWidth n).setWidth 64) := by
    intro n hn
    induction n with
    | zero => simpa [BitVec.of_length_zero] using hzero
    | succ n ih =>
      cases hw : w.getLsbD n with
      | false =>
        rw [BitVec.setWidth_setWidth_succ_eq_setWidth_setWidth_of_getLsbD_false hw]
        exact ih (by omega)
      | true =>
        have hsplit : (w.setWidth (n + 1)).setWidth 64 = (w.setWidth n).setWidth 64 ^^^ BitVec.twoPow 64 n := by
          rw [BitVec.setWidth_setWidth_succ_eq_setWidth_setWidth_or_twoPow_of_getLsbD_true hw]
          apply BitVec.eq_of_getLsbD_eq
          intro i hi
          rw [BitVec.getLsbD_or, BitVec.getLsbD_xor, BitVec.getLsbD_twoPow, BitVec.getLsbD_setWidth,
            BitVec.getLsbD_setWidth]
          by_cases hin : n = i <;> simp [hin]
        rw [hsplit]
        exact hxor _ _ (ih (by omega)) (hbit ⟨n, by omega⟩)
  simpa using hlowest 64 le_rfl

/-- Entry `i` is the lane that the lane function maps to the single bit `i`: the columns of the inverse of table `A`. -/
def singleBitPreimages : Vector Lane 64 := #v[
  0xdc6e36e95e0a310b#64, 0xa5dc6ccfbc146216#64, 0x57a5d8836528c42c#64, 0xae57ad1bca509558#64,
  0x41ae473689a037b0#64, 0x82418e6c0f5d6e7d#64, 0x198201d81ebadcfa#64, 0x321902ad3c69a5e9#64,
  0x49d9d1cb12a5f7b1#64, 0x92afbf8b2457f37f#64, 0x3943630b48aefbfe#64, 0x7286c6169041ebe1#64,
  0xe411912c3d82cbdf#64, 0xd5223f587a198ba3#64, 0xb7447eb0f4320b5b#64, 0x7388fc7df56416b6#64,
  0x32786fdea3a318a8#64, 0x64f0dea15b5b304d#64, 0xc8fda15fb6b6609a#64, 0x8de75fbe7171c029#64,
  0x07d3be61e2e29d52#64, 0x0ebb61c2d9d927a4#64, 0x1c6bc299afaf4e55#64, 0x38d6992f43439caa#64,
  0x70256d11ef564e51#64, 0xe04ada22c3ac9ca2#64, 0xdd94a9449b452559#64, 0xa7354f882b8a4ab2#64,
  0x536a9e0d56099479#64, 0xa6d4211aac1235f2#64, 0x51b5423445246af9#64, 0xa27784688a48d4ef#64,
  0x9813d5ff7fe3f8ad#64, 0x2d26b7e3fedbed47#64, 0x5a4c73dbe1abc78e#64, 0xb498e6abdf4b9301#64,
  0x752dd14ba3963b02#64, 0xea5abf965b317604#64, 0xc9b46331b662ec08#64, 0x8f75c66271c4c510#64,
  0x91073f14f6277fd0#64, 0x3f0e7e28f14efebd#64, 0x7e1cfc50ff9ce167#64, 0xfc38e5a0e325dfce#64,
  0xe570d75ddb4aa381#64, 0xd7e0b3baab945b1f#64, 0xb3dd7b694b35b63e#64, 0x7ba7f6d2966a717c#64,
  0xabf2017c29f19997#64, 0x4bf902f852ff2f33#64, 0x96ef04eda4e35e66#64, 0x31c308c755dbbccc#64,
  0x629b1093aaab6585#64, 0xc42b203b494bca17#64, 0x955640769296892e#64, 0x37ac80ec39310f5c#64,
  0xffb3d920c3520bec#64, 0xe37baf409ba416c5#64, 0xdbf643802b552c97#64, 0xabf1861d56aa5833#64,
  0x4bff113aac49b066#64, 0x96e3227445927dcc#64, 0x31db44e88a39fa85#64, 0x62ab88cd0972e917#64]

theorem lane_singleBitPreimages : ∀ i : Fin 64, lane singleBitPreimages[i] = BitVec.twoPow 64 i.val := by
  decide +kernel

/-- The images of the lane function are closed under XOR, and every single bit is one. -/
theorem lane_surjective : Function.Surjective lane :=
  lane_induction (P := fun w => ∃ x, lane x = w) ⟨0, lane_zero⟩ (fun i => ⟨_, lane_singleBitPreimages i⟩)
    fun _ _ ⟨x, hx⟩ ⟨y, hy⟩ => ⟨x ^^^ y, by rw [lane_xor, hx, hy]⟩

theorem lane_bijective : Function.Bijective lane :=
  Finite.surjective_iff_bijective.mp lane_surjective

@[simp] theorem laneAt_lin (v : Vec) (k : Fin 8) : laneAt (lin v) k = lane (laneAt v k) :=
  laneAt_ofLanes _ k

/-- `LIN` is linear over GF(2), lane by lane (R114). -/
theorem lin_xor512 (a b : Vec) : lin (xor512 a b) = xor512 (lin a) (lin b) :=
  eq_of_laneAt_eq fun k => by
    simp only [xor512, laneAt_lin, laneAt_xor, lane_xor]

@[simp] theorem laneAt_zero (k : Fin 8) : laneAt 0 k = 0 := by
  simp [laneAt]

theorem lin_zero : lin 0 = 0 :=
  eq_of_laneAt_eq fun k => by rw [laneAt_lin, laneAt_zero, lane_zero]

/-- `LIN` is undone lane by lane. -/
theorem lin_bijective : Function.Bijective lin := by
  refine ⟨fun v w h => eq_of_laneAt_eq fun k => ?_, fun v => ?_⟩
  · have hk : lane (laneAt v k) = lane (laneAt w k) := by rw [← laneAt_lin, h, laneAt_lin]
    exact lane_bijective.injective hk
  · choose preimage hpreimage using lane_surjective
    exact ⟨ofLanes fun k => preimage (laneAt v k),
      eq_of_laneAt_eq fun k => by rw [laneAt_lin, laneAt_ofLanes, hpreimage]⟩

/-- Settles O38: what holds of the lane function, carried over lane by lane. -/
theorem linearTransformIsALanewiseBijection : Obligations.LinearTransformIsALanewiseBijection := by
  unfold Obligations.LinearTransformIsALanewiseBijection
  exact ⟨laneAt_lin, lin_xor512, lin_zero, lin_bijective⟩

end Sys2Proof.Machine
end

section
/-! PROOFS. `LPS` (R116): which of its parts commute, and that it is a bijection because each of them is. -/

namespace Sys2Proof.Machine

/-- `SUB` acts on the value of a byte and `PERM` on its place, so their order does not matter. -/
theorem sub_perm (v : Vec) : sub (perm v) = perm (sub v) :=
  eq_of_byteAt_eq fun i => by rw [byteAt_sub, byteAt_perm, byteAt_perm, byteAt_sub]

/-- `SUB` turns the zero vector, which `LIN` fixes, into one that `LIN` does not fix. -/
theorem lin_sub_zero_ne : lin (sub 0) ≠ sub (lin 0) := by
  decide +kernel

/-- `LIN` keeps the single bit 0 within lane 7, from where `PERM` spreads it over all lanes. -/
theorem lin_perm_one_ne : lin (perm 1) ≠ perm (lin 1) := by
  decide +kernel

theorem perm_bijective : Function.Bijective perm :=
  Function.Involutive.bijective perm_perm

theorem lps_bijective : Function.Bijective lps :=
  lin_bijective.comp (perm_bijective.comp sub_bijective)

/-- Settles O41: the order is the definition, and zero and one are the vectors on which the orders differ. -/
theorem pipelineOrderAndBijection : Obligations.PipelineOrderAndBijection := by
  unfold Obligations.PipelineOrderAndBijection
  exact ⟨fun _ => rfl, sub_perm, ⟨0, lin_sub_zero_ne⟩, ⟨1, lin_perm_one_ne⟩, lps_bijective⟩

end Sys2Proof.Machine
end

section
/-! PROOFS. The byte-serial adder (R131): the bytes it has built and the carry it holds are at every index the sum of the
bytes it has read, so that at index 0 only the dropped carry separates it from the integer sum of R130. -/

namespace Sys2Proof.Machine

theorem packFields_cons {w : Nat} (b : BitVec w) (l : List (BitVec w)) :
    packFields (b :: l) = b.toNat * 2 ^ (w * l.length) + packFields l := by
  induction l using List.reverseRecOn with
  | nil => simp [packFields]
  | append_singleton l x ih =>
    rw [← List.cons_append, packFields_append, packFields_append, ih, List.length_append, List.length_singleton]
    ring

/-- The bytes of a vector, byte 0 first, are the digits of its integer (R7). -/
theorem packFields_map_byteAt (v : Vec) : packFields ((List.finRange 64).map (byteAt v)) = v.toNat := by
  rw [← ofBytes_toNat, ofBytes_byteAt]

/-- The 9-bit sum holds `a + b + c` in full: its low byte is the sum byte, its top bit the new carry (R131). -/
theorem addByte_toNat (c : Bool) (a b : Byte) :
    (addByte c a b).1.toNat + (addByte c a b).2.toNat * 2 ^ 8 = a.toNat + b.toNat + c.toNat := by
  have ha := a.isLt
  have hb := b.isLt
  have hc := c.toNat_le
  have hsum : (a.setWidth 9 + b.setWidth 9 + (BitVec.ofBool c).setWidth 9).toNat =
      a.toNat + b.toNat + c.toNat := by
    simp only [BitVec.toNat_add, BitVec.toNat_setWidth, BitVec.toNat_ofBool]
    omega
  simp only [addByte, BitVec.toNat_setWidth, BitVec.getLsbD, hsum, Nat.toNat_testBit]
  omega

/-- The byte-serial adder on the bytes at `indices`, the last of them the least significant: the sum bytes and the
carry (R131). -/
def serialSum (a b : Vec) (indices : List (Fin 64)) : List Byte × Bool :=
  indices.foldr
    (fun i r => ((addByte r.2 (byteAt a i) (byteAt b i)).1 :: r.1, (addByte r.2 (byteAt a i) (byteAt b i)).2))
    ([], false)

theorem add512Serial_eq_serialSum (a b : Vec) :
    add512Serial a b = BitVec.ofNat 512 (packFields (serialSum a b (List.finRange 64)).1) := rfl

theorem serialSum_cons (a b : Vec) (i : Fin 64) (l : List (Fin 64)) :
    serialSum a b (i :: l) =
      ((addByte (serialSum a b l).2 (byteAt a i) (byteAt b i)).1 :: (serialSum a b l).1,
        (addByte (serialSum a b l).2 (byteAt a i) (byteAt b i)).2) := rfl

theorem serialSum_length (a b : Vec) (l : List (Fin 64)) : (serialSum a b l).1.length = l.length := by
  induction l with
  | nil => rfl
  | cons i l ih => rw [serialSum_cons, List.length_cons, List.length_cons, ih]

/-- The carry stands one place above the sum bytes, and together they lose nothing of the two operands. -/
theorem serialSum_toNat (a b : Vec) (l : List (Fin 64)) :
    packFields (serialSum a b l).1 + (serialSum a b l).2.toNat * 2 ^ (8 * l.length) =
      packFields (l.map (byteAt a)) + packFields (l.map (byteAt b)) := by
  induction l with
  | nil => rfl
  | cons i l ih =>
    have hbyte := addByte_toNat (serialSum a b l).2 (byteAt a i) (byteAt b i)
    simp only [serialSum_cons, List.map_cons, packFields_cons, serialSum_length, List.length_map, List.length_cons]
    linear_combination ih + 2 ^ (8 * l.length) * hbyte

/-- The byte-serial adder on the integers of R7: the carry out of byte 0 is a multiple of 2^512. -/
theorem add512Serial_toNat (a b : Vec) : (add512Serial a b).toNat = (a.toNat + b.toNat) % 2 ^ 512 := by
  have hsum := serialSum_toNat a b (List.finRange 64)
  rw [packFields_map_byteAt, packFields_map_byteAt, List.length_finRange] at hsum
  rw [add512Serial_eq_serialSum, BitVec.toNat_ofNat, ← hsum, Nat.add_mul_mod_self_right]

/-- Settles O43: both adders are addition modulo 2^512 of the integers of R7. -/
theorem byteSerialAdderEqualsTheAdder : Obligations.ByteSerialAdderEqualsTheAdder := by
  unfold Obligations.ByteSerialAdderEqualsTheAdder
  intro a b
  exact BitVec.eq_of_toNat_eq ((add512Serial_toNat a b).trans (add512_toNat a b).symm)

end Sys2Proof.Machine
end

section
/-! PROOFS. The round keys and the cipher `E` (R140, R141, R142): `E` computes each round key in the round that uses it,
`roundKeys` lists all of them first, and both run through the same indices. -/

namespace Sys2Proof.Machine

/-- Settles O44: a key that equals the constant cancels it, and the example is evaluated. -/
theorem keyScheduleRoundFormula : Obligations.KeyScheduleRoundFormula := by
  unfold Obligations.KeyScheduleRoundFormula
  refine ⟨fun _ _ => rfl, fun i => congrArg lps BitVec.xor_self, ?_⟩
  decide +kernel

theorem rounds_getElem? (i : Fin 12) : rounds[i.val]? = some i := by
  revert i
  decide

theorem roundKeys_length (key : Vec) : (roundKeys key).length = 13 :=
  List.length_scanl

theorem roundKeys_getElem?_zero (key : Vec) : (roundKeys key)[0]? = some key :=
  List.getElem?_scanl_zero

theorem roundKeys_getElem?_succ (key : Vec) (i : Fin 12) :
    (roundKeys key)[i.val + 1]? = ((roundKeys key)[i.val]?).map fun k => ks k i := by
  rw [roundKeys, List.getElem?_succ_scanl, rounds_getElem?]
  exact Option.map_eq_bind.symm

theorem tail_scanl_ks_cons (key : Vec) (i : Fin 12) (rest : List (Fin 12)) :
    ((i :: rest).scanl ks key).tail = ks key i :: (rest.scanl ks (ks key i)).tail := by
  cases rest <;> simp

/-- The rounds at any indices: each uses the key that the schedule reaches in it, so the keys may be computed first. -/
theorem foldl_encRound_state (indices : List (Fin 12)) (key state : Vec) :
    (indices.foldl encRound { key := key, state := state }).state =
      (indices.scanl ks key).tail.foldl (fun state k => xor512 (lps state) k) state := by
  induction indices generalizing key state with
  | nil => rfl
  | cons i rest ih =>
    rw [List.foldl_cons, encRound, ih, tail_scanl_ks_cons, List.foldl_cons]

/-- Settles O45: the schedule by its recurrence, `E` by `foldl_encRound_state`. -/
theorem cipherUsesThirteenRoundKeysInOrder : Obligations.CipherUsesThirteenRoundKeysInOrder := by
  unfold Obligations.CipherUsesThirteenRoundKeysInOrder
  exact fun key blk => ⟨roundKeys_length key, roundKeys_getElem?_zero key, roundKeys_getElem?_succ key,
    foldl_encRound_state rounds key (xor512 blk key)⟩

end Sys2Proof.Machine
end

section
/-! PROOFS. The compression function `G` (R150): the operand hold of R152 does not change its value. -/

namespace Sys2Proof.Machine

/-- `G` on values: each held operand is the operand itself (R150, R152). -/
theorem compress_eq (N h m : Vec) : compress N h m = enc (lps (N ^^^ h)) m ^^^ h ^^^ m := by
  simp only [compress, hold_eq, xor512]

/-- Settles O46: the formula is `compress_eq`, and the two examples of the rule are evaluated. -/
theorem compressionFormula : Obligations.CompressionFormula := by
  unfold Obligations.CompressionFormula
  refine ⟨compress_eq, ?_, ?_⟩
  · decide +kernel
  · decide +kernel

end Sys2Proof.Machine
end

section
/-! PROOFS. `REV64` (R57, R160) and `PAD` (R161): byte `j` of the data port is bus byte `j` of the block, so that
the padded block is the tail on the bus below the delimiter. -/

namespace Sys2Proof.Machine

/-! ### Byte reversal -/

@[simp] theorem rev64Out_rev64 (d : Bytes64) : rev64Out (rev64 d) = d :=
  funext fun j => by rw [rev64Out_apply, byteAt_rev64, Fin.rev_rev]

@[simp] theorem rev64_rev64Out (v : Vec) : rev64 (rev64Out v) = v :=
  eq_of_byteAt_eq fun i => by rw [byteAt_rev64, rev64Out_apply, Fin.rev_rev]

/-- A block has on the bus the bytes it was reversed from (R57, R160). -/
@[simp] theorem busByte_rev64 (d : Bytes64) (j : Fin 64) : busByte (rev64 d) j = d j := by
  rw [busByte_eq_byteAt_rev, byteAt_rev64, Fin.rev_rev]

/-- Settles O47: the byte law decides the inverses and the bus identity; the example is evaluated. -/
theorem byteReversalIsBusIdentity : Obligations.ByteReversalIsBusIdentity := by
  unfold Obligations.ByteReversalIsBusIdentity
  refine ⟨byteAt_rev64, rev64Out_rev64, rev64_rev64Out, rev64_busByte, fun b => ?_, ?_⟩
  · exact eq_of_byteAt_eq fun i => by rw [byteAt_rev64, byteAt_ofBytes]
  · decide +kernel

/-! ### Padding -/

theorem padTail_of_lt {d : Bytes64} {bl : BitVec 6} {j : Fin 64} (h : j.val < bl.toNat) : padTail d bl j = d j :=
  if_pos h

theorem padTail_of_eq {d : Bytes64} {bl : BitVec 6} {j : Fin 64} (h : j.val = bl.toNat) : padTail d bl j = 0x01 :=
  (if_neg h.not_lt).trans (if_pos h)

theorem padTail_of_gt {d : Bytes64} {bl : BitVec 6} {j : Fin 64} (h : bl.toNat < j.val) : padTail d bl j = 0x00 :=
  (if_neg h.not_gt).trans (if_neg h.ne')

/-- The low `m` bus bytes of a vector are its integer modulo `2^(8*m)` (R57). -/
theorem toNat_mod_eq_of_busByte_eq {a b : Vec} {m : Nat} (hm : m ≤ 64)
    (h : ∀ j : Fin 64, j.val < m → busByte a j = busByte b j) :
    a.toNat % 2 ^ (8 * m) = b.toNat % 2 ^ (8 * m) := by
  apply Nat.eq_of_testBit_eq
  intro k
  rw [Nat.testBit_mod_two_pow, Nat.testBit_mod_two_pow]
  by_cases hk : k < 8 * m
  · have hbit := congrArg (fun x => BitVec.getLsbD x (k % 8)) (h ⟨k / 8, by omega⟩ (by simp only; omega))
    simp only [getLsbD_busByte, Nat.div_add_mod, Nat.mod_lt k (by decide : 8 > 0), decide_true, Bool.true_and] at hbit
    exact congrArg _ hbit
  · simp only [hk, decide_false, Bool.false_and]

/-- The padded block as an integer: the delimiter alone above the tail bytes on the bus (R161). -/
theorem padTail_toNat (bus : Vec) (bl : BitVec 6) :
    (rev64 (padTail (busByte bus) bl)).toNat = 2 ^ (8 * bl.toNat) + bus.toNat % 2 ^ (8 * bl.toNat) := by
  have htail : (rev64 (padTail (busByte bus) bl)).toNat % 2 ^ (8 * bl.toNat) = bus.toNat % 2 ^ (8 * bl.toNat) :=
    toNat_mod_eq_of_busByte_eq (Nat.le_of_lt bl.isLt) fun j hj => by rw [busByte_rev64, padTail_of_lt hj]
  have hsplit := Nat.div_add_mod (rev64 (padTail (busByte bus) bl)).toNat (2 ^ (8 * bl.toNat))
  rw [padTail_toNat_div, Nat.mul_one, htail] at hsplit
  exact hsplit.symm

/-- The padded empty tail is the delimiter alone (R166, R167). -/
theorem rev64_padTail_zero (d : Bytes64) : rev64 (padTail d 0) = 1 :=
  (BitVec.ushiftRight_zero _).symm.trans (padTail_ushiftRight d 0)

/-- Settles O48: the bytes by the three ranges of `padTail`, the integer by `padTail_toNat`; the example is
evaluated. -/
theorem paddingPutsTheDelimiterAboveTheTail : Obligations.PaddingPutsTheDelimiterAboveTheTail := by
  unfold Obligations.PaddingPutsTheDelimiterAboveTheTail
  refine ⟨fun d bl j => ⟨padTail_of_lt, padTail_of_eq, padTail_of_gt⟩, padTail_toNat, rev64_padTail_zero,
    fun d => ?_, ?_⟩
  · rw [byteAt_rev64]
    exact padTail_of_eq rfl
  · decide +kernel

end Sys2Proof.Machine
end

section
/-! PROOFS. The streaming commands (R163 to R166): the whole next state of each, first where it is admitted, then where
the matrix refuses it. -/

namespace Sys2Proof.Machine

/-! ### The next state, written out -/

/-- A command that the matrix refuses in a phase changes the fault status alone (R191, R193). -/
theorem exec_of_phase_refused {i : Instr} {s : State} {p : Phase} (c : FaultCause) (hp : s.phase = p)
    (hc : admissionCause i p = some c) :
    exec i s = .next { s with err := true, errCause := if s.err then s.errCause else c.code } :=
  exec_of_refused (hp ▸ hc)

/-- `ABSORB` on a block just loaded (R162): every right-hand side reads the old registers. -/
theorem absorbBlock_loadBlock (bits : BitVec 16) (m : Vec) (s : State) :
    absorbBlock bits (loadBlock m s) = { s with
      block := m
      blockSize := blockSizeOf bits
      hash := compress s.n s.hash m
      n := add512 s.n (blockSizeOf bits)
      sigma := add512 s.sigma m } := rfl

theorem exec_block_of_absorb {s : State} (hp : s.phase = .absorb) :
    exec .block s = .next { s with
      block := rev64 (dataBytes s)
      blockSize := 512
      hash := compress s.n s.hash (rev64 (dataBytes s))
      n := add512 s.n 512
      sigma := add512 s.sigma (rev64 (dataBytes s)) } := by
  rw [exec_of_admitted (admissionCause_block_eq_none.mpr hp), admittedEffect, absorbBlock_loadBlock,
    blockSizeOf_chunkBits]

theorem exec_last_of_absorb {s : State} (len : BitVec 6) (hp : s.phase = .absorb) :
    exec (.last len) s = .next { s with
      block := rev64 (padTail (dataBytes s) len)
      blockSize := BitVec.ofNat 512 (8 * len.toNat)
      hash := compress s.n s.hash (rev64 (padTail (dataBytes s) len))
      n := add512 s.n (BitVec.ofNat 512 (8 * len.toNat))
      sigma := add512 s.sigma (rev64 (padTail (dataBytes s) len))
      phase := .padded } := by
  rw [exec_of_admitted (admissionCause_last_eq_none.mpr hp), admittedEffect, absorbBlock_loadBlock,
    blockSizeOf_eq_ofNat, tailBits_toNat, enterPhase]

/-- The empty tail: the delimiter is the block, and its length 0 leaves `n` as it is (R167). -/
theorem exec_last_zero_of_absorb {s : State} (hp : s.phase = .absorb) :
    exec (.last 0) s = .next { s with
      block := 1, blockSize := 0, hash := compress s.n s.hash 1, sigma := add512 s.sigma 1, phase := .padded } := by
  have hlen : BitVec.ofNat 512 (8 * (0 : BitVec 6).toNat) = 0 := rfl
  have hn : add512 s.n 0 = s.n := BitVec.add_zero _
  rw [exec_last_of_absorb 0 hp, rev64_padTail_zero, hlen, hn]

/-! ### The two commands that look at no phase -/

/-- Settles O14: the matrix admits `NOP` everywhere, and its effect is the state itself. -/
theorem nopChangesNothing : Obligations.NopChangesNothing := by
  unfold Obligations.NopChangesNothing
  exact ⟨decode_encode .nop, rfl, fun s => exec_of_admitted rfl⟩

/-- `IV_256` has every byte 0x01, `IV_512` is `ZERO` (R5). -/
theorem ivOf_eq (v256 : Bool) : ivOf v256 =
    if v256 then 0x01010101010101010101010101010101010101010101010101010101010101010101010101010101010101010101010101010101010101010101010101010101#512 else 0 := by
  revert v256; decide +kernel

theorem exec_init (v256 : Bool) (s : State) :
    exec (.init v256) s = .next { s with
      use256 := v256, hash := ivOf v256, n := 0, sigma := 0, block := 0, blockSize := 0
      phase := .absorb, err := false, errCause := 0 } :=
  exec_of_admitted rfl

/-- A second `INIT` overwrites everything that the first one wrote (R164). -/
theorem exec_init_of_exec_init {v v' : Bool} {s t : State} (h : exec (.init v) s = .next t) :
    exec (.init v') t = exec (.init v') s := by
  rw [exec_init] at h
  cases h
  rw [exec_init, exec_init]

/-- Settles O15: the whole state by `exec_init`, the illegal words by the clause of R86 that each breaks. -/
theorem initCreatesAFreshContext : Obligations.InitCreatesAFreshContext := by
  unfold Obligations.InitCreatesAFreshContext
  refine ⟨decode_encode (.init false), decode_encode (.init true), fun v s => ?_,
    fun v v' s t => exec_init_of_exec_init, fun w hop hbits => ?_⟩
  · rw [exec_init, ivOf_eq]
  · rw [exists_decode_eq_error_iff_clauses, hop]
    rcases hbits with hlen | hrsv
    · exact .inr (.inr (.inr ⟨hlen, by decide⟩))
    · exact .inr (.inl hrsv)

/-! ### The two commands that absorb -/

/-- Settles O16: the next state by the admission matrix, and the example of R165, in which the block is the bus. -/
theorem blockAbsorbsTheChunk : Obligations.BlockAbsorbsTheChunk := by
  unfold Obligations.BlockAbsorbsTheChunk
  refine ⟨decode_encode .block, fun s => exec_block_of_absorb,
    fun s hp => exec_of_phase_refused .notInitialised hp rfl,
    fun s hp => exec_of_phase_refused .alreadyPadded hp rfl,
    fun s hp => exec_of_phase_refused .alreadyFinal hp rfl,
    fun s hp hhash hn hsigma hdata => ⟨_, exec_block_of_absorb hp, ?_⟩⟩
  simp only [dataBytes, rev64_busByte, hdata, hhash, hn, hsigma]
  refine ⟨?_, BitVec.zero_add _, BitVec.zero_add _, ?_⟩
  · decide +kernel
  · decide +kernel

/-- Settles O18: the padded empty tail is the delimiter, whatever the data port carries. -/
theorem emptyTailAbsorbsTheDelimiterAlone : Obligations.EmptyTailAbsorbsTheDelimiterAlone := by
  unfold Obligations.EmptyTailAbsorbsTheDelimiterAlone
  exact fun s => exec_last_zero_of_absorb

/-- Settles O17: the next state by the admission matrix, and the example of R166, which is the empty tail. -/
theorem lastAbsorbsThePaddedTail : Obligations.LastAbsorbsThePaddedTail := by
  unfold Obligations.LastAbsorbsThePaddedTail
  refine ⟨fun len => encode_last len ▸ decode_encode (.last len), fun s len => exec_last_of_absorb len,
    fun s len hp => exec_of_phase_refused .notInitialised hp rfl,
    fun s len hp => exec_of_phase_refused .alreadyPadded hp rfl,
    fun s len hp => exec_of_phase_refused .alreadyFinal hp rfl,
    fun s hp hhash hn hsigma => ⟨_, exec_last_zero_of_absorb hp, rfl, hn, ?_, ?_⟩⟩
  · rw [hsigma]
    exact BitVec.zero_add 1
  · simp only [hhash, hn]
    decide +kernel

end Sys2Proof.Machine
end

section
/-! PROOFS. The command `FINAL` (R180) and the finished context (R182): in `DONE` a step keeps the digest, or it is an
`INIT` or a reset and leaves the phase (`step_of_done_cases`). -/

namespace Sys2Proof.Machine

/-! ### The closing folds -/

/-- The second fold reads the hash that the first one left (R180). -/
theorem foldHash_foldHash (m m' : Vec) (s : State) :
    foldHash m' (foldHash m s) = { s with hash := compress 0 (compress 0 s.hash m) m' } := rfl

theorem exec_final_of_padded {s : State} (hp : s.phase = .padded) :
    exec .final s = .next { s with hash := compress 0 (compress 0 s.hash s.n) s.sigma, phase := .done } := by
  rw [exec_of_admitted (admissionCause_final_eq_none.mpr hp), admittedEffect, foldHash_foldHash, enterPhase]

/-- Settles O19: the next state by the admission matrix; the two folds of the rule's example are evaluated. -/
theorem finalFoldsLengthThenChecksum : Obligations.FinalFoldsLengthThenChecksum := by
  unfold Obligations.FinalFoldsLengthThenChecksum
  refine ⟨decode_encode .final, fun s => exec_final_of_padded,
    fun s hp => exec_of_phase_refused .notInitialised hp rfl,
    fun s hp => exec_of_phase_refused .notPadded hp rfl,
    fun s hp => exec_of_phase_refused .alreadyFinal hp rfl,
    fun s hp hn hsigma hhash => ⟨_, exec_final_of_padded hp, (digestValid_iff _).mpr rfl, ?_⟩⟩
  simp only [hn, hsigma, hhash]
  decide +kernel

/-! ### The finished context -/

/-- The commands that the matrix admits in `DONE` (R191). -/
theorem admissionCause_done_eq_none {i : Instr} : admissionCause i .done = none ↔ i = .nop ∨ ∃ v, i = .init v := by
  cases i <;> simp [admissionCause]

/-- The digest port reads the phase, the variant and the hash alone (R30, R181). -/
theorem digest_congr {s t : State} (hphase : t.phase = s.phase) (huse : t.use256 = s.use256)
    (hhash : t.hash = s.hash) : t.digest = s.digest := by
  have hvalid : digestValid t = digestValid s := congrArg (· == Phase.done) hphase
  simp only [State.digest, hvalid, huse, hhash]

/-- In `DONE` a step writes no register but the fault status, or it is a reset or an `INIT` and leaves the phase
(R182). -/
theorem step_of_done_cases {s t : State} (hstep : step s = .next t) (hdone : s.phase = .done) :
    SameCore { t with err := s.err, errCause := s.errCause } s ∨
    (t.phase ≠ .done ∧ ∃ c rest, s.inputs = c :: rest ∧
      (c.rst = true ∨ (c.cmdValid = true ∧ ∃ v, decode c.cmd = .ok (.init v)))) := by
  rcases step_keeps_context_or_acts hstep with
    hkept | ⟨c, rest, hin, ⟨hrst, rfl⟩ | ⟨-, hvalid, i, hdec, hadm, rfl⟩⟩
  · exact .inl hkept
  · exact .inr ⟨nofun, c, rest, hin, .inl hrst⟩
  · rw [hdone] at hadm
    rcases admissionCause_done_eq_none.mp hadm with rfl | ⟨v, rfl⟩
    · exact .inl ⟨rfl, rfl, rfl, rfl, rfl, rfl, rfl, rfl, rfl⟩
    · exact .inr ⟨nofun, c, rest, hin, .inr ⟨hvalid, v, hdec⟩⟩

/-- Settles O32: the refusals by the admission matrix, the steps by the two cases of `step_of_done_cases`. -/
theorem aFinishedContextKeepsItsDigest : Obligations.AFinishedContextKeepsItsDigest := by
  unfold Obligations.AFinishedContextKeepsItsDigest
  refine ⟨fun i s hdone hi => ?_, fun s t hstep hdone hleft => ?_, fun s t hstep hdone hstays => ?_⟩
  · rcases hi with rfl | ⟨len, rfl⟩ | rfl <;> exact exec_of_phase_refused .alreadyFinal hdone rfl
  · rcases step_of_done_cases hstep hdone with ⟨-, -, -, -, -, -, hphase, -, -⟩ | ⟨-, hcause⟩
    · exact absurd (hphase.trans hdone) hleft
    · exact hcause
  · rcases step_of_done_cases hstep hdone with ⟨hhash, -, -, -, -, huse, hphase, -, -⟩ | ⟨hleft, -⟩
    · exact ⟨hhash, huse, digest_congr hphase huse hhash⟩
    · exact absurd hstays hleft

end Sys2Proof.Machine
end

section
/-! PROOFS. Protocol faults (R190 to R196): every step answers a next state, and it keeps the fault status, raises the
first fault, or is a reset or an `INIT`, which clear it (`step_faultStatus_cases`). -/

namespace Sys2Proof.Machine

/-- Settles O13: a reset answers a next state, and so does every cycle without one (`runCycle_draws`). -/
theorem everyStepCompletes : Obligations.EveryStepCompletes := by
  unfold Obligations.EveryStepCompletes
  intro s
  cases hin : s.inputs with
  | nil => exact ⟨s, step_of_inputs_nil hin⟩
  | cons c rest =>
    rw [step_of_inputs_cons hin]
    cases hrst : c.rst with
    | true => exact ⟨_, runCycle_reset hrst (dropInput s)⟩
    | false =>
      obtain ⟨t, ht, -⟩ := runCycle_draws hrst (dropInput s)
      exact ⟨t, ht⟩

/-! ### What becomes of the fault status -/

/-- An admitted command leaves the fault status alone, unless it is an `INIT`, which clears it (R28, R195). -/
theorem admittedEffect_faultStatus (i : Instr) (s : State) :
    ((admittedEffect i s).err = s.err ∧ (admittedEffect i s).errCause = s.errCause) ∨
    ((∃ v, i = .init v) ∧ (admittedEffect i s).err = false ∧ (admittedEffect i s).errCause = 0) := by
  cases i with
  | init v256 => exact .inr ⟨⟨v256, rfl⟩, rfl, rfl⟩
  | nop | block | last len | final => exact .inl ⟨rfl, rfl⟩

/-- A fault while `err = 1` changes nothing (R196). -/
theorem raiseFault_of_err {s : State} (c : FaultCause) (h : s.err = true) : raiseFault c s = s := by
  rcases raiseFault_cases c s with ⟨hclear, -⟩ | ⟨-, hkept⟩
  · exact absurd (hclear.symm.trans h) Bool.false_ne_true
  · exact hkept

/-- A fault leaves a status that is set as it is, and sets one that is clear to its own cause (R193). -/
theorem raiseFault_faultStatus (c : FaultCause) (s : State) :
    ((raiseFault c s).err = s.err ∧ (raiseFault c s).errCause = s.errCause) ∨
    (s.err = false ∧ (raiseFault c s).err = true ∧ (raiseFault c s).errCause = c.code) := by
  rcases raiseFault_cases c s with ⟨hclear, hs⟩ | ⟨-, hs⟩ <;> rw [hs]
  · exact .inr ⟨hclear, rfl, rfl⟩
  · exact .inl ⟨rfl, rfl⟩

/-- The three things a step does to the fault status: it keeps it, it raises the first fault, or it is a reset or an
accepted `INIT` and clears it (R193, R195, R196). -/
theorem step_faultStatus_cases {s t : State} (h : step s = .next t) :
    (t.err = s.err ∧ t.errCause = s.errCause) ∨
    (s.err = false ∧ t.err = true ∧ ∃ cause : FaultCause, t.errCause = cause.code) ∨
    (t.err = false ∧ t.errCause = 0 ∧ ∃ c rest, s.inputs = c :: rest ∧
      ((c.rst = true ∧ t = hardwareReset (dropInput s)) ∨
       (c.rst = false ∧ c.cmdValid = true ∧ ∃ v, decode c.cmd = .ok (.init v) ∧
         t = admittedEffect (.init v) (sampleData c.dataIn (dropInput s))))) := by
  rcases step_cases h with ⟨-, rfl⟩ | ⟨c, rest, hin,
    ⟨hrst, rfl⟩ | ⟨-, -, rfl⟩ | ⟨hrst, hvalid, i, hdec, hexec⟩ | ⟨-, -, r, -, rfl⟩⟩
  · exact .inl ⟨rfl, rfl⟩
  · exact .inr (.inr ⟨rfl, rfl, c, rest, hin, .inl ⟨hrst, rfl⟩⟩)
  · exact .inl ⟨rfl, rfl⟩
  · rcases exec_cases hexec with ⟨-, rfl⟩ | ⟨cause, -, rfl⟩
    · rcases admittedEffect_faultStatus i (sampleData c.dataIn (dropInput s)) with
        hkept | ⟨⟨v, rfl⟩, herr, hcause⟩
      · exact .inl hkept
      · exact .inr (.inr ⟨herr, hcause, c, rest, hin, .inr ⟨hrst, hvalid, v, hdec, rfl⟩⟩)
    · exact (raiseFault_faultStatus cause (sampleData c.dataIn (dropInput s))).imp_right
        fun ⟨hclear, herr, hcause⟩ => .inl ⟨hclear, herr, _, hcause⟩
  · exact (raiseFault_faultStatus .illegalCmd (sampleData c.dataIn (dropInput s))).imp_right
      fun ⟨hclear, herr, hcause⟩ => .inl ⟨hclear, herr, _, hcause⟩

/-! ### The statements -/

/-- A step writes no reserved cause code: one that stands after it stood there before (R191). -/
theorem step_errCause_of_reserved {s t : State} (hstep : step s = .next t) (hcode : 6 ≤ t.errCause.toNat) :
    t.errCause = s.errCause := by
  rcases step_faultStatus_cases hstep with ⟨-, hkept⟩ | ⟨-, -, cause, hraised⟩ | ⟨-, hcleared, -⟩
  · exact hkept
  · have hle := cause.code_range.right
    rw [hraised] at hcode
    omega
  · rw [hcleared] at hcode
    exact absurd hcode (by decide)

/-- Settles O20: refusals and effects by the matrix, illegal words by the decoder's refusal, and the reserved codes by
the three cases of the fault status. -/
theorem admissionFollowsTheMatrix : Obligations.AdmissionFollowsTheMatrix := by
  unfold Obligations.AdmissionFollowsTheMatrix
  refine ⟨⟨rfl, rfl, rfl, rfl, rfl⟩, fun i s c hc => exec_of_refused hc, fun i s hadm => ?_,
    fun w d s e hw => acceptCommand_of_illegal hw d s, fun s t => step_errCause_of_reserved⟩
  exact ⟨_, exec_of_admitted hadm, admittedEffect_phase i s, admittedEffect_faultStatus i s⟩

/-- Settles O22: a step that finds `err` set and leaves it set raised no first fault and cleared nothing. -/
theorem firstFaultCauseIsKept : Obligations.FirstFaultCauseIsKept := by
  unfold Obligations.FirstFaultCauseIsKept
  refine ⟨fun c s => raiseFault_of_err c, fun s t hstep hs ht => ?_⟩
  rcases step_faultStatus_cases hstep with ⟨-, hkept⟩ | ⟨hclear, -⟩ | ⟨hcleared, -⟩
  · exact hkept
  · exact absurd (hclear.symm.trans hs) Bool.false_ne_true
  · exact absurd (hcleared.symm.trans ht) Bool.false_ne_true

/-- Settles O23: of the three cases of the fault status only the last one takes `err` from 1 to 0; its reset leaves
`IDLE` and its `INIT` the fresh context. -/
theorem onlyInitOrResetClearsTheFault : Obligations.OnlyInitOrResetClearsTheFault := by
  unfold Obligations.OnlyInitOrResetClearsTheFault
  intro s t hstep hs ht
  rcases step_faultStatus_cases hstep with ⟨hkept, -⟩ | ⟨hclear, -⟩ |
    ⟨-, hcause, c, rest, hin, ⟨hrst, rfl⟩ | ⟨hrst, hvalid, v, hdec, rfl⟩⟩
  · exact absurd (ht.symm.trans (hkept.trans hs)) Bool.false_ne_true
  · exact absurd (hclear.symm.trans hs) Bool.false_ne_true
  · exact ⟨hcause, c, rest, hin, .inl ⟨hrst, rfl⟩⟩
  · have hfresh : FreshContext (admittedEffect (.init v) (sampleData c.dataIn (dropInput s))) :=
      ⟨rfl, rfl, rfl, rfl, rfl⟩
    exact ⟨hcause, c, rest, hin, .inr ⟨hrst, hvalid, v, hdec, rfl, rfl, hfresh⟩⟩

end Sys2Proof.Machine
end


section
/-! PROOFS. Hardware reset (R220): the reset branch of a cycle, and what the control registers and the outputs show after
it. -/

namespace Sys2Proof.Machine

/-- Reset writes no queue, so the cycles that follow the reset cycle are those that stood behind it (R220). -/
theorem hardwareReset_dropInput_inputs {s : State} {c : InputCycle} {rest : List InputCycle}
    (h : s.inputs = c :: rest) : (hardwareReset (dropInput s)).inputs = rest := by
  rw [hardwareReset_inputs, dropInput_inputs, h, List.tail_cons]

/-- Reset leaves `IDLE`, where no digest is valid (R30, R220). -/
theorem hardwareReset_digestValid (s : State) : digestValid (hardwareReset s) = false := by
  rw [Bool.eq_false_iff, ne_eq, digestValid_iff, hardwareReset_phase]
  exact nofun

/-- Settles O9: `rst` selects the reset branch whatever `cmdValid` and `cmd` are, and reset writes the control
registers. -/
theorem hardwareResetEntersIdle : Obligations.HardwareResetEntersIdle := by
  unfold Obligations.HardwareResetEntersIdle
  intro s c rest hin hrst
  have hstep : step s = .next (hardwareReset (dropInput s)) :=
    (step_of_inputs_cons hin).trans (runCycle_reset hrst (dropInput s))
  exact ⟨_, hstep, hardwareReset_phase _, hardwareReset_err _, hardwareReset_errCause _,
    hardwareReset_dropInput_inputs hin, rfl, hardwareReset_digestValid _⟩

end Sys2Proof.Machine
end
